-- ==== Sys2Proof/Word.lean ====
section
/-! DEFINITION. The word types of the block (00_scope.md R6, 30_encoding.md R80). -/

namespace Sys2Proof

/-- An 8-bit pattern: an output sample, a table sample, a byte operand (R6, R82). -/
abbrev Byte := BitVec 8

/-- A 16-bit operand: a Note's frequency or duration (R6, R83). -/
abbrev Half := BitVec 16

/-- A 32-bit field, register or ROM entry (R6, R45, R62). -/
abbrev Word := BitVec 32

/-- A 64-bit millisecond time (R6, R41). -/
abbrev Time := BitVec 64

/-- A 40-bit command word (R80). -/
abbrev CommandWord := BitVec 40

end Sys2Proof
end

