-- ==== Sys2Proof/Syntax.lean ====
section
/-! DEFINITION. The block's commands, one constructor per row of spec/opcode_table.json (30_encoding.md R85). -/

namespace Sys2Proof

/-- A decoded command with its operands (R85, R86). Operands are unsigned fields of the encoding's own widths, so every
term stands for exactly one legal command word. -/
inductive Instr where
  /-- `BEGIN pin` (44_control.md R190). -/
  | begin (pin : Byte)
  /-- `SET_VOLUME percent` (40_oscillator.md R110). -/
  | setVolume (percent : Byte)
  /-- `START_NOTE freqHz, durMs` (40_oscillator.md R111). -/
  | startNote (freq dur : Half)
  /-- `STOP_NOTE` (40_oscillator.md R112). -/
  | stopNote
  /-- `UPDATE` (42_sequencer.md R161). -/
  | update
  /-- `START_CHIME strikes` (42_sequencer.md R158). -/
  | startChime (strikes : Byte)
  /-- `READ_REG index` (44_control.md R194). -/
  | readReg (index : Byte)
  /-- `IS_PLAYING` (44_control.md R195). -/
  | isPlaying
  deriving DecidableEq, Repr

end Sys2Proof
end

