-- ==== Sys2Proof/WellFormed.lean ====
section
/-! DEFINITION. What a legal command word is, said bit by bit from 30_encoding.md R81 to R87 and apart from the decoder,
and when written operands fit their fields (R82, R83). -/

namespace Sys2Proof

/-- The opcode is one of 0x01 to 0x08 (R85, R87). -/
def opcodeLegal (w : CommandWord) : Bool := 1 ≤ w.toNat / 2 ^ 32 && w.toNat / 2 ^ 32 ≤ 8

/-- A format Z word (opcodes 0x04, 0x05, 0x08) has payload 0 (R81). -/
def zeroPayloadLegal (w : CommandWord) : Bool :=
  !([4, 5, 8].contains (w.toNat / 2 ^ 32)) || w.toNat % 2 ^ 32 == 0

/-- A format B word (opcodes 0x01, 0x02, 0x06, 0x07) has bits 31:8 equal to 0 (R82). -/
def bytePayloadLegal (w : CommandWord) : Bool :=
  !([1, 2, 6, 7].contains (w.toNat / 2 ^ 32)) || w.toNat % 2 ^ 32 / 2 ^ 8 == 0

/-- The word is a legal encoding (R87). -/
def wordWellFormed (w : CommandWord) : Bool := opcodeLegal w && zeroPayloadLegal w && bytePayloadLegal w

/-- A written byte operand fits IMM8 (R82). -/
def fitsByte (n : Nat) : Bool := n < 2 ^ 8

/-- A written note operand fits FREQ or DUR (R83). -/
def fitsHalf (n : Nat) : Bool := n < 2 ^ 16

end Sys2Proof
end

