-- ==== Sys2Proof/Decode.lean ====
section
/-! DEFINITION. The decoder of 30_encoding.md R80 to R87, total on 40-bit words and rejecting by name, the encoder
written from the same formats, and the fields of a ROM entry. -/

namespace Sys2Proof

/-- Why a word is no command (R84, R87). -/
inductive DecodeError where
  /-- Opcode 0x00 or 0x09 to 0xFF. -/
  | illegalOpcode
  /-- A reserved-zero bit of a format Z or B word is set. -/
  | reservedBits
  deriving DecidableEq, Repr

/-- OPC, bits 39:32 (R80). -/
def opcodeOf (w : CommandWord) : Byte := w.extractLsb' 32 8

/-- The payload, bits 31:0 (R80). -/
def payloadOf (w : CommandWord) : Word := w.extractLsb' 0 32

/-- RSV of format B, bits 31:8 (R82). -/
def reservedOf (w : CommandWord) : BitVec 24 := w.extractLsb' 8 24

/-- IMM8, bits 7:0 (R82, R86). -/
def imm8Of (w : CommandWord) : Byte := w.extractLsb' 0 8

/-- FREQ, bits 31:16 (R83, R86). -/
def freqOf (w : CommandWord) : Half := w.extractLsb' 16 16

/-- DUR, bits 15:0 (R83, R86). -/
def durOf (w : CommandWord) : Half := w.extractLsb' 0 16

/-- Format Z: no operand, bits 31:0 reserved zero (R81). -/
def decodeZ (w : CommandWord) (i : Instr) : Except DecodeError Instr :=
  if payloadOf w = 0#32 then .ok i else .error .reservedBits

/-- Format B: one byte operand, bits 31:8 reserved zero (R82). -/
def decodeB (w : CommandWord) (i : Byte → Instr) : Except DecodeError Instr :=
  if reservedOf w = 0#24 then .ok (i (imm8Of w)) else .error .reservedBits

/-- Format N: two 16-bit operands, no reserved bits (R83). -/
def decodeN (w : CommandWord) (i : Half → Half → Instr) : Except DecodeError Instr :=
  .ok (i (freqOf w) (durOf w))

/-- The opcode map of R85: the opcode check comes before the reserved-bit check (R84). -/
def decode (w : CommandWord) : Except DecodeError Instr :=
  match (opcodeOf w).toNat with
  | 0x01 => decodeB w .begin
  | 0x02 => decodeB w .setVolume
  | 0x03 => decodeN w .startNote
  | 0x04 => decodeZ w .stopNote
  | 0x05 => decodeZ w .update
  | 0x06 => decodeB w .startChime
  | 0x07 => decodeB w .readReg
  | 0x08 => decodeZ w .isPlaying
  | _ => .error .illegalOpcode

/-- A format Z word (R81). -/
def encodeZ (op : Byte) : CommandWord := op ++ 0#32

/-- A format B word (R82). -/
def encodeB (op imm : Byte) : CommandWord := op ++ 0#24 ++ imm

/-- A format N word (R83). -/
def encodeN (op : Byte) (freq dur : Half) : CommandWord := op ++ freq ++ dur

/-- The word of a command (R80 to R85). -/
def encode : Instr → CommandWord
  | .begin pin => encodeB 0x01#8 pin
  | .setVolume percent => encodeB 0x02#8 percent
  | .startNote freq dur => encodeN 0x03#8 freq dur
  | .stopNote => encodeZ 0x04#8
  | .update => encodeZ 0x05#8
  | .startChime strikes => encodeB 0x06#8 strikes
  | .readReg index => encodeB 0x07#8 index
  | .isPlaying => encodeZ 0x08#8

/-- The command a word of the opcode table stands for: the table numbers a command's one 40-bit word with bit 0 its least
significant bit, as R11 and R80 do (log entry 4). -/
def decodeTableWord (nbits w : Nat) : Option Instr :=
  if w < 2 ^ nbits ∧ w < 2 ^ 40 then
    match decode (BitVec.ofNat 40 w) with
    | .ok i => some i
    | .error _ => none
  else none

/-! ### The fields of a melody ROM entry -/

/-- A ROM entry's `frequency`, bits 31:16 (20_memory.md R62). -/
abbrev entryFrequency (n : Word) : Half := n.extractLsb' 16 16

/-- A ROM entry's `durationMs`, bits 15:0 (20_memory.md R62). -/
abbrev entryDuration (n : Word) : Half := n.extractLsb' 0 16

end Sys2Proof
end

