-- ==== Sys2Proof/Config.lean ====
section
/-! DEFINITION. The implementation parameters of 00_scope.md R5 and 48_host_trigger.md R201: their types, the values
the spec fixes, and a free value (a constant with no body) for each parameter or draw the spec leaves open. -/

namespace Sys2Proof

/-- The three agents (00_scope.md R7). -/
inductive Agent where
  | tick
  | host
  | clock
  deriving DecidableEq, Repr, Inhabited

/-- The two roundings of the scaler's division (R5 `SCALE_DIV`, R102). -/
inductive ScaleDiv where
  | trunc
  | floor
  deriving DecidableEq, Repr

/-- The parameters a step reads that are not ROM contents (R5, R201). The state carries them, and no step writes them
(log entry 7). -/
structure Params where
  /-- `SAMPLE_RATE`, Hz (R5). -/
  sampleRate : Nat
  /-- `NEUTRAL` (R5, R102). -/
  neutral : Byte
  /-- `OUT_MIN` (R5, R102). -/
  outMin : Byte
  /-- `OUT_MAX` (R5, R102). -/
  outMax : Byte
  /-- `SCALE_DIV` (R5, R102). -/
  scaleDiv : ScaleDiv
  /-- `GAP_NOTE`, ms (R152). -/
  gapNote : Nat
  /-- `GAP_PHRASE`, ms (R152). -/
  gapPhrase : Nat
  /-- `GAP_PAUSE`, ms (R152). -/
  gapPause : Nat
  /-- `GAP_STRIKE`, ms (R152). -/
  gapStrike : Nat
  /-- `QUIET_START`, an hour (R201). -/
  quietStart : Nat
  /-- `QUIET_END`, an hour (R201). -/
  quietEnd : Nat
  /-- `CHIME_WINDOW_S`, seconds (R201). -/
  chimeWindowS : Nat
  deriving DecidableEq, Repr

/-- The constraints R5, R152 and R201 put on the parameters. -/
abbrev Params.legal (P : Params) : Prop :=
  0 < P.sampleRate ∧ P.gapNote < P.gapPhrase ∧ P.quietStart < 24 ∧ P.quietEnd < 24 ∧ 1 ≤ P.chimeWindowS

/-- The constraints of 40_oscillator.md R100 on the waveform table. -/
abbrev waveLegal (wave : Vector Byte 64) : Prop :=
  (∀ i : Fin 64, -91 ≤ (wave.get i).toInt ∧ (wave.get i).toInt ≤ 91) ∧
  (∃ i : Fin 64, (wave.get i).toInt = 91) ∧ (∃ i : Fin 64, (wave.get i).toInt = -91)

/-- The frequencies of melody entries 0 to 15, in play order. -/
abbrev melodyFrequencies (rom : Vector Word 17) : List Nat :=
  (rom.toList.take 16).map fun n => (entryFrequency n).toNat

/-- The constraints of 42_sequencer.md R150 (melody, entries 0 to 15) and R151 (strike note, entry 16). -/
abbrev melodyLegal (rom : Vector Word 17) : Prop :=
  (∀ i : Fin 17, 0 < (entryFrequency (rom.get i)).toNat ∧ 0 < (entryDuration (rom.get i)).toNat) ∧
  (melodyFrequencies rom).dedup.length = 4 ∧
  (∀ m : Fin 4, ∀ p : Fin 3,
    (entryDuration (rom.get (Fin.ofNat 17 (4 * m.val + p.val)))).toNat
      < (entryDuration (rom.get (Fin.ofNat 17 (4 * m.val + 3)))).toNat) ∧
  (∀ f ∈ melodyFrequencies rom, (entryFrequency (rom.get 16)).toNat < f)

namespace Config

/-- A free value kept inside the limits the spec sets: `free` where it is legal, else a legal stand-in. Nothing can be
proved of the result but that it is legal (log entry 5). -/
def restrict {α : Type} (legal : α → Prop) [DecidablePred legal] (free standIn : α) : α :=
  if legal free then free else standIn

/-- Free value behind `WAVE_TABLE` (OPEN, R5, R100). -/
opaque freeWaveTable : Vector Byte 64

/-- Free value behind `MELODY` and `STRIKE_NOTE` (OPEN, R5, R150, R151). -/
opaque freeMelodyRom : Vector Word 17

/-- Stand-in for `restrict`: some table that meets R100. It is not claimed to be the hardware's. -/
def standInWave : Vector Byte 64 :=
  Vector.ofFn fun i => if i = 0 then 91#8 else if i = 1 then BitVec.ofInt 8 (-91) else 0#8

/-- Stand-in for `restrict`: some melody and strike note that meet R150 and R151. Not claimed to be the hardware's. -/
def standInMelody : Vector Word 17 :=
  Vector.ofFn fun i =>
    if i = 16 then 0x00010001#32
    else if i.val % 4 = 3 then 0x00050002#32
    else BitVec.ofNat 32 ((2 + i.val % 4) * 65536 + 1)

/-- `WAVE_TABLE`, within R100 (log entry 5). -/
def waveTable : Vector Byte 64 := restrict waveLegal freeWaveTable standInWave

/-- `MELODY` (entries 0 to 15) and `STRIKE_NOTE` (entry 16), within R150 and R151 (log entry 5). -/
def melodyRom : Vector Word 17 := restrict melodyLegal freeMelodyRom standInMelody

/-- `VOLUME_RESET`, OPEN in 0 to 100 (R5, R53). -/
opaque volumeReset : Fin 101

/-- The draw `NOW0`, any 64-bit value (R41, R53). -/
opaque now0 : Time

/-- The power-on draw of `OUTPUT` (R53, S12). -/
opaque outputDraw : Byte

/-- How far `GAP_PHRASE` exceeds `GAP_NOTE` by more than 1 ms (OPEN, R152). -/
opaque freeGapExcess : Nat

/-- `QUIET_START`, OPEN, an hour (R201). -/
opaque freeQuietStart : Fin 24

/-- `QUIET_END`, OPEN, an hour (R201). -/
opaque freeQuietEnd : Fin 24

/-- How far `CHIME_WINDOW_S` exceeds 1 s (OPEN, R201). -/
opaque freeWindowExcess : Nat

/-- Which agent moves at the n-th choice no schedule made (R7, R228, S14; log entry 1). -/
opaque freeAgent : Nat → Agent

/-- `GAP_NOTE`'s default (R152, D13). -/
def gapNote : Nat := 80

/-- `GAP_PHRASE`, OPEN, greater than `GAP_NOTE` (R152). -/
def gapPhrase : Nat := gapNote + 1 + freeGapExcess

/-- The parameters of this hardware: the defaults of R5 and the open ones as free values (log entry 7). -/
def hardware : Params where
  sampleRate := 44000
  neutral := 128#8
  outMin := 0#8
  outMax := 255#8
  scaleDiv := .trunc
  gapNote := gapNote
  gapPhrase := gapPhrase
  gapPause := 1500
  gapStrike := 1000
  quietStart := freeQuietStart.val
  quietEnd := freeQuietEnd.val
  chimeWindowS := 1 + freeWindowExcess

/-- `MELODY_LEN` (R5, R150). -/
def melodyLen : Nat := 16

/-- `PHRASE_ENDS` (R154, D14). -/
def phraseEnds : List Nat := [3, 7, 11]

/-- `STRIKE_MIN` (R5, D37). -/
def strikeMin : Nat := 1

/-- `STRIKE_MAX` (R5, D37). -/
def strikeMax : Nat := 12

/-- A run this many milliseconds long is out of the model's scope (R168, S15). -/
def runLimitMs : Nat := 2 ^ 64

end Config

end Sys2Proof
end

