-- ==== Sys2Proof/Machine/State.lean ====
section
/-! DEFINITION. The block's state (10_state.md R22), its two ROMs (20_memory.md R60), the host's side of a run, and the
state after power-on (10_state.md R53). -/

namespace Sys2Proof.Machine

/-- `playbackState` (R14, R32). -/
inductive PlaybackState where
  | idle
  | playingNote
  | gap
  deriving DecidableEq, Repr

/-- `chimePhase` (R14, R33). -/
inductive ChimePhase where
  | none
  | melody
  | pauseBeforeStrikes
  | strikes
  | complete
  deriving DecidableEq, Repr

/-- What the host does next. The block sees command words only (R80). The other two are the hourly trigger's, which is a
host agent (48_host_trigger.md R200, R203; log entry 10). -/
inductive HostAction where
  /-- Give the block this command word. -/
  | word (w : CommandWord)
  /-- Call `maybeChime` with the wall clock at hour, minute, second (R200). -/
  | maybeChime (hour minute second : Nat)
  /-- The second half of a call: having asked IS_PLAYING, start the chime of this hour unless `resp` is 1 (R203). -/
  | chimeIfIdle (hour : Nat)
  deriving DecidableEq, Repr

/-- Why the machine stops. -/
inductive Fault where
  /-- The HOST agent has no step for this command: the block is faulted and the command is neither READ_REG 0x00 to 0x0F
  nor IS_PLAYING (30_encoding.md R84, 60_exceptions.md R224, S7). Raised by `exec` alone; `step` never gives the block
  such a command (log entry 3). Safe: the spec gives HOST no step there. -/
  | hostStuck
  deriving DecidableEq, Repr

/-- Why the model has no meaning for an input. -/
inductive Refusal where
  /-- An instruction without a meaning yet. Raised by no arm of `exec`. Safe. -/
  | notModelled (mnemonic : String)
  /-- `maybeChime` was called with a wall-clock value outside 0-23, 0-59, 0-59 (48_host_trigger.md R200, S16). Raised by
  the HOST agent's turn, never by a command. Safe: the spec says the model refuses it. -/
  | wallClockOutOfRange
  /-- The run reaches 2^64 ms (42_sequencer.md R168, S15). Raised by the CLOCK agent, never by a command. Safe: the spec
  puts such runs out of the model's scope. -/
  | runTooLong
  deriving DecidableEq, Repr

/-- The state of the block and of its host. -/
structure State where
  /-- Phase within one waveform cycle (R23). -/
  phaseAccumulator : Word
  /-- Phase step of each tone tick (R24). -/
  phaseIncrement : Word
  /-- Scaler gain of the current note (R25). -/
  amplitude : Byte
  /-- A note is sounding (R26). -/
  active : Bool
  /-- Volume percent (R27). -/
  volume : Byte
  /-- `OUTPUT`, the last value written to the sink (R28). -/
  output : Byte
  /-- Ticks counted in the current note (R29). -/
  sampleCount : Word
  /-- Tick count at which the failsafe stops the note (R30). -/
  sampleTarget : Word
  /-- The failsafe stopped the note (R31). -/
  completedFlag : Bool
  /-- Sequencer sub-state (R32). -/
  playbackState : PlaybackState
  /-- Phase of the chime cycle (R33). -/
  chimePhase : ChimePhase
  /-- Melody notes started in this cycle (R34). -/
  sequenceIndex : Word
  /-- Strikes started in this cycle (R35). -/
  strikeIndex : Word
  /-- Strikes to play in this cycle (R36). -/
  strikeCount : Word
  /-- When the current note or gap began (R37). -/
  noteStartTimeMs : Time
  /-- Duration of the last note the sequencer started (R37). -/
  noteDurationMs : Word
  /-- BEGIN has executed (R39). -/
  begun : Bool
  /-- The operand of BEGIN (R39). -/
  outputPin : Byte
  /-- 0 or the code of the first fault (R40, R221). -/
  faultCode : Byte
  /-- The millisecond clock (R41). -/
  nowMs : Time
  /-- The response port (R42). -/
  resp : Word
  /-- Every value written to the sink, oldest first (R43). -/
  outTrace : List Byte
  /-- The ROM `WAVE` (R60, R61). -/
  waveRom : Vector Byte 64
  /-- The ROM `MELODY`: entries 0 to 15 the melody, 16 the strike note (R60, R62). -/
  melodyRom : Vector Word 17
  /-- The configuration parameters (R5). -/
  params : Params
  /-- The hourly trigger's state: no hour, or the hour last chimed (48_host_trigger.md R201). -/
  lastChimedHour : Option Nat
  /-- The model's own: what the host does next, in order (log entry 4). -/
  hostQueue : List HostAction
  /-- The model's own: which agents move next, in order (log entry 1). -/
  schedule : List Agent
  /-- The model's own: how many agents were chosen by a free value (log entry 1). -/
  drawCount : Nat
  /-- The model's own: CLOCK steps since power-on (log entry 9). -/
  runMs : Nat
  deriving DecidableEq, Repr

/-- The ROM contents meet the constraints the spec puts on them (40_oscillator.md R100, 42_sequencer.md R150, R151). The
block has no other memory (20_memory.md R60, R63; log entry 11). -/
abbrev Memory.wf (s : State) : Prop := waveLegal s.waveRom ∧ melodyLegal s.melodyRom

/-- The state after power-on (10_state.md R53, 70_reset_and_hazards.md R250). The host has nothing queued and no
interleaving is asked for (log entries 1 and 4). -/
def State.reset : State where
  phaseAccumulator := 0#32
  phaseIncrement := 0#32
  amplitude := 0#8
  active := false
  volume := BitVec.ofNat 8 Config.volumeReset.val
  output := Config.outputDraw
  sampleCount := 0#32
  sampleTarget := 0#32
  completedFlag := false
  playbackState := .idle
  chimePhase := .none
  sequenceIndex := 0#32
  strikeIndex := 0#32
  strikeCount := 0#32
  noteStartTimeMs := 0#64
  noteDurationMs := 0#32
  begun := false
  outputPin := 0#8
  faultCode := 0#8
  nowMs := Config.now0
  resp := 0#32
  outTrace := []
  waveRom := Config.waveTable
  melodyRom := Config.melodyRom
  params := Config.hardware
  lastChimedHour := none
  hostQueue := []
  schedule := []
  drawCount := 0
  runMs := 0

end Sys2Proof.Machine
end

