-- ==== Sys2Proof/Machine/Flags.lean ====
section
/-! DEFINITION. The derived flag PLAYING, the enum codes and the packed flag registers (10_state.md R38, R44, R46-R48). -/

namespace Sys2Proof.Machine

/-- `PLAYING`, which is `playbackState != Idle` (R44). -/
def playing (s : State) : Bool := s.playbackState != .idle

/-- The code of `playbackState` (R38). -/
def playbackCode : PlaybackState → BitVec 2
  | .idle => 0#2
  | .playingNote => 1#2
  | .gap => 2#2

/-- The code of `chimePhase` (R38). -/
def phaseCode : ChimePhase → BitVec 3
  | .none => 0#3
  | .melody => 1#3
  | .pauseBeforeStrikes => 2#3
  | .strikes => 3#3
  | .complete => 4#3

/-- OSC_FLAGS: bit 0 `active`, bit 1 `completedFlag` (R46). -/
def oscFlags (s : State) : Word := 0#30 ++ BitVec.ofBool s.completedFlag ++ BitVec.ofBool s.active

/-- SEQ_STATE: bits 1:0 the playback code, bits 6:4 the phase code (R47). -/
def seqState (s : State) : Word := 0#25 ++ phaseCode s.chimePhase ++ 0#2 ++ playbackCode s.playbackState

/-- STATUS: bit 0 `begun`, bit 1 PLAYING, bits 15:8 `faultCode`, bits 23:16 `outputPin` (R48). -/
def statusWord (s : State) : Word :=
  0#8 ++ s.outputPin ++ s.faultCode ++ 0#6 ++ BitVec.ofBool (playing s) ++ BitVec.ofBool s.begun

end Sys2Proof.Machine
end

