-- ==== Sys2Proof/Machine/Operands.lean ====
section
/-! DEFINITION. The operand forms of the commands: the register index of READ_REG with the view it selects (10_state.md
R45-R49), and the ranges of the percent and strike-count operands (30_encoding.md R86). -/

namespace Sys2Proof.Machine

/-- The sixteen registers of the view (R45). -/
inductive RegName where
  | phaseAcc | phaseInc | amplitude | oscFlags | sampleCount | sampleTarget | volume | output
  | seqState | seqIndex | strikeIndex | strikeCount | noteStartLo | noteStartHi | noteDuration | status
  deriving DecidableEq, Repr

/-- The register of an index; none for 0x10 to 0xFF, which are unassigned (R45). -/
def registerAt (index : Byte) : Option RegName :=
  match index.toNat with
  | 0x00 => some .phaseAcc
  | 0x01 => some .phaseInc
  | 0x02 => some .amplitude
  | 0x03 => some .oscFlags
  | 0x04 => some .sampleCount
  | 0x05 => some .sampleTarget
  | 0x06 => some .volume
  | 0x07 => some .output
  | 0x08 => some .seqState
  | 0x09 => some .seqIndex
  | 0x0A => some .strikeIndex
  | 0x0B => some .strikeCount
  | 0x0C => some .noteStartLo
  | 0x0D => some .noteStartHi
  | 0x0E => some .noteDuration
  | 0x0F => some .status
  | _ => none

/-- The 32-bit contents of a register (R45-R49). AMPLITUDE and VOLUME show bits 6:0 only (log entry 14). -/
def viewOf (r : RegName) (s : State) : Word :=
  match r with
  | .phaseAcc => s.phaseAccumulator
  | .phaseInc => s.phaseIncrement
  | .amplitude => 0#25 ++ s.amplitude.extractLsb' 0 7
  | .oscFlags => Machine.oscFlags s
  | .sampleCount => s.sampleCount
  | .sampleTarget => s.sampleTarget
  | .volume => 0#25 ++ s.volume.extractLsb' 0 7
  | .output => 0#24 ++ s.output
  | .seqState => Machine.seqState s
  | .seqIndex => s.sequenceIndex
  | .strikeIndex => s.strikeIndex
  | .strikeCount => s.strikeCount
  | .noteStartLo => s.noteStartTimeMs.extractLsb' 0 32
  | .noteStartHi => s.noteStartTimeMs.extractLsb' 32 32
  | .noteDuration => s.noteDurationMs
  | .status => statusWord s

/-- The percent operand of SET_VOLUME is 0 to 100 (R86, R110). -/
def volumeInRange (p : Byte) : Bool := p.toNat ≤ 100

/-- The operand of START_CHIME is `STRIKE_MIN` to `STRIKE_MAX` (R86, R158). -/
def strikesInRange (n : Byte) : Bool := Config.strikeMin ≤ n.toNat && n.toNat ≤ Config.strikeMax

end Sys2Proof.Machine
end

