-- ==== Sys2Proof/Machine/Ops.lean ====
section
/-! DEFINITION. The operations the commands and the tick share: faults, the output sink, ROM reads, the arithmetic of
00_scope.md R12, the scaler, note parameters, startNote and stopNote, and the checks every command passes first. -/

namespace Sys2Proof.Machine

/-- The faults of 60_exceptions.md R221. -/
inductive FaultCode where
  | illegalOpcode
  | reservedBits
  | notBegun
  | alreadyBegun
  | noteOverlap
  | zeroFrequency
  | incrementOverflow
  | zeroDuration
  | volumeRange
  | strikeCountRange
  | hostNoteWhileSequencing
  | badRegister
  deriving DecidableEq, Repr

/-- The code of a fault (R221). -/
def faultByte : FaultCode → Byte
  | .illegalOpcode => 0x01#8
  | .reservedBits => 0x02#8
  | .notBegun => 0x03#8
  | .alreadyBegun => 0x04#8
  | .noteOverlap => 0x05#8
  | .zeroFrequency => 0x06#8
  | .incrementOverflow => 0x07#8
  | .zeroDuration => 0x08#8
  | .volumeRange => 0x09#8
  | .strikeCountRange => 0x0A#8
  | .hostNoteWhileSequencing => 0x0B#8
  | .badRegister => 0x0C#8

/-- Taking a fault: the code is recorded if none was, and nothing else changes (R222, R224). -/
def raiseFault (c : FaultCode) (s : State) : State :=
  { s with faultCode := if s.faultCode = 0#8 then faultByte c else s.faultCode }

/-- How a command or sub-operation ends: done, or at a raise with the writes made before it (R224, log entry 12). -/
inductive Sub where
  | done (s : State)
  | raised (c : FaultCode) (s : State)
  deriving DecidableEq, Repr

/-- The rest of a command runs only if the part before it raised nothing (R224 item 2). -/
def andThen (r : Sub) (rest : State → State) : Sub :=
  match r with
  | .done s => .done (rest s)
  | .raised c s => .raised c s

/-- A command's outcome: a raised fault is taken, so it too is a next state (R224). -/
def finish (r : Sub) : Host.Outcome State Fault Refusal :=
  match r with
  | .done s => .next s
  | .raised c s => .next (raiseFault c s)

/-- `OutWrite(v)` (20_memory.md R64). -/
def outWrite (v : Byte) (s : State) : State :=
  { s with output := v, outTrace := s.outTrace ++ [v] }

/-- `MemRead(WAVE, i, 1)` (R61). -/
def memReadWave (s : State) (i : BitVec 6) : Byte := s.waveRom.get i.toFin

/-- `MemRead(MELODY, i, 4)` (R62), for `i` in 0 to 16. -/
def memReadMelody (s : State) (i : Fin 17) : Word := s.melodyRom.get i

/-- `round(num / den)`: floor of the rational plus one half (00_scope.md R12). -/
def roundDiv (num den : Nat) : Nat := (2 * num + den) / (2 * den)

/-- `SCALE_DIV(p, 64)`: `trunc_div` or `floor_div` (R12, 40_oscillator.md R102). -/
def divideBy64 (mode : ScaleDiv) (p : Int) : Int :=
  match mode with
  | .trunc => p.tdiv 64
  | .floor => p.fdiv 64

/-- `clamp(v, lo, hi)` (R12). -/
def clamp (v lo hi : Int) : Int := if v < lo then lo else if hi < v then hi else v

/-- `index(a)`, bits 31:26 of an accumulator value (40_oscillator.md R101). -/
def tableIndex (a : Word) : BitVec 6 := a.extractLsb' 26 6

/-- The amplitude scaler (R102). -/
def scale (P : Params) (sample amp : Byte) : Byte :=
  let q := divideBy64 P.scaleDiv (sample.toInt * amp.toNat)
  BitVec.ofInt 8 (clamp (q + P.neutral.toNat) P.outMin.toNat P.outMax.toNat)

/-- `AMP_MAP(p)` (R104). -/
def ampMap (p : Byte) : Byte := BitVec.ofNat 8 (p.toNat * 127 / 100)

/-- `round(f * 2^32 / SAMPLE_RATE)` (R103). -/
def noteIncrement (P : Params) (f : Half) : Nat := roundDiv (f.toNat * 2 ^ 32) P.sampleRate

/-- `round(d * SAMPLE_RATE / 1000)` (R103). -/
def noteTarget (P : Params) (d : Half) : Nat := roundDiv (d.toNat * P.sampleRate) 1000

/-- `noteParams(f, d)`: the increment and the target of a note, or the first fault in the order of R103. -/
def noteParams (P : Params) (f d : Half) : Except FaultCode (Word × Word) :=
  if f = 0#16 then .error .zeroFrequency
  else if 2 ^ 32 ≤ noteIncrement P f then .error .incrementOverflow
  else if noteTarget P d = 0 then .error .zeroDuration
  else if 2 ^ 32 ≤ noteTarget P d then .error .zeroDuration
  else .ok (BitVec.ofNat 32 (noteIncrement P f), BitVec.ofNat 32 (noteTarget P d))

/-- The writes of `startNote` once its checks have passed (R105). The phase accumulator is not written. -/
def soundNote (inc tgt : Word) (s : State) : State :=
  { s with
    phaseIncrement := inc
    amplitude := ampMap s.volume
    sampleCount := 0#32
    sampleTarget := tgt
    completedFlag := false
    active := true }

/-- `startNote(f, d)` (R105): it checks before it writes, so a raise leaves the state as it was. -/
def startNote (f d : Half) (s : State) : Sub :=
  if s.active then .raised .noteOverlap s
  else match noteParams s.params f d with
    | .error c => .raised c s
    | .ok (inc, tgt) => .done (soundNote inc tgt s)

/-- `stopNote()` (R107): the neutral level is written at once, whether or not a note was active. -/
def stopNote (s : State) : State :=
  outWrite s.params.neutral { s with active := false, phaseAccumulator := 0#32 }

/-- Commands a faulted block still takes (30_encoding.md R84, 60_exceptions.md R224). -/
def legalWhenFaulted : Instr → Bool
  | .readReg index => index ≤ 0x0F#8
  | .isPlaying => true
  | .begin _ | .setVolume _ | .startNote _ _ | .stopNote | .update | .startChime _ => false

/-- Commands that raise `NOT_BEGUN` before `BEGIN` (R84, 44_control.md R191). -/
def needsBegun : Instr → Bool
  | .startNote _ _ | .stopNote | .update | .startChime _ => true
  | .begin _ | .setVolume _ | .readReg _ | .isPlaying => false

/-- The checks R84 makes before a command's own rule, in its order: a faulted block, then `NOT_BEGUN`. -/
def command (i : Instr) (rule : State → Sub) (s : State) : Host.Outcome State Fault Refusal :=
  if s.faultCode ≠ 0#8 then
    if legalWhenFaulted i then finish (rule s) else .fault .hostStuck
  else if needsBegun i && !s.begun then .next (raiseFault .notBegun s)
  else finish (rule s)

end Sys2Proof.Machine
end

