-- ==== Sys2Proof/Machine/Control.lean ====
section
/-! DEFINITION. The control and status commands: BEGIN, READ_REG and IS_PLAYING (44_control.md R190-R195). -/

namespace Sys2Proof.Machine

/-- BEGIN's own rule (R190). -/
def beginRule (pin : Byte) (s : State) : Sub :=
  if s.begun then .raised .alreadyBegun s
  else .done (outWrite s.params.neutral { s with outputPin := pin, begun := true })

/-- `BEGIN pin` (R190). -/
def execBegin (pin : Byte) (s : State) : Host.Outcome State Fault Refusal :=
  command (.begin pin) (beginRule pin) s

/-- READ_REG's own rule (R194). -/
def readRegRule (index : Byte) (s : State) : Sub :=
  match registerAt index with
  | some r => .done { s with resp := viewOf r s }
  | none => .raised .badRegister s

/-- `READ_REG index` (R194). -/
def execReadReg (index : Byte) (s : State) : Host.Outcome State Fault Refusal :=
  command (.readReg index) (readRegRule index) s

/-- IS_PLAYING's own rule (R195). -/
def isPlayingRule (s : State) : Sub :=
  .done { s with resp := if playing s then 1#32 else 0#32 }

/-- `IS_PLAYING` (R195). -/
def execIsPlaying (s : State) : Host.Outcome State Fault Refusal :=
  command .isPlaying isPlayingRule s

end Sys2Proof.Machine
end

