-- ==== Sys2Proof/Machine/Oscillator.lean ====
section
/-! DEFINITION. The oscillator's commands: SET_VOLUME, START_NOTE and STOP_NOTE (40_oscillator.md R110-R112). -/

namespace Sys2Proof.Machine

/-- SET_VOLUME's own rule (R110). -/
def setVolumeRule (p : Byte) (s : State) : Sub :=
  if volumeInRange p then .done { s with volume := p } else .raised .volumeRange s

/-- `SET_VOLUME p` (R110). -/
def execSetVolume (p : Byte) (s : State) : Host.Outcome State Fault Refusal :=
  command (.setVolume p) (setVolumeRule p) s

/-- START_NOTE's own rule (R111). -/
def startNoteRule (f d : Half) (s : State) : Sub :=
  if s.playbackState ≠ .idle then .raised .hostNoteWhileSequencing s else startNote f d s

/-- `START_NOTE f, d` (R111). -/
def execStartNote (f d : Half) (s : State) : Host.Outcome State Fault Refusal :=
  command (.startNote f d) (startNoteRule f d) s

/-- STOP_NOTE's own rule (R112). -/
def stopNoteRule (s : State) : Sub :=
  if s.playbackState ≠ .idle then .raised .hostNoteWhileSequencing s else .done (stopNote s)

/-- `STOP_NOTE` (R112). -/
def execStopNote (s : State) : Host.Outcome State Fault Refusal :=
  command .stopNote stopNoteRule s

end Sys2Proof.Machine
end

