-- ==== Sys2Proof/Machine/Sequencer.lean ====
section
/-! DEFINITION. The melody sequencer: gaps, advance, START_CHIME and UPDATE (42_sequencer.md R152-R168). -/

namespace Sys2Proof.Machine

/-- `gapLength()` (R153, R154), in ms. -/
def gapLength (s : State) : Nat :=
  match s.chimePhase with
  | .melody =>
    if Config.phraseEnds.contains (s.sequenceIndex.toNat - 1) then s.params.gapPhrase else s.params.gapNote
  | .pauseBeforeStrikes => s.params.gapPause
  | .strikes => s.params.gapStrike
  | .none => 0
  | .complete => 0

/-- `elapsed()`: `(now - noteStartTimeMs) mod 2^64` (R168). -/
def elapsed (now : Time) (s : State) : Nat := (now - s.noteStartTimeMs).toNat

/-- What the sequencer writes for a note it has started, but for its count (R155, R156). -/
def stampNote (now : Time) (n : Word) (s : State) : State :=
  { s with
    playbackState := .playingNote
    noteStartTimeMs := now
    noteDurationMs := (entryDuration n).setWidth 32 }

/-- Starting the melody note at `sequenceIndex` (R155). -/
def startMelodyNote (now : Time) (s : State) : Sub :=
  let n := memReadMelody s (Fin.ofNat 17 s.sequenceIndex.toNat)
  andThen (startNote (entryFrequency n) (entryDuration n) s) fun t =>
    stampNote now n { t with sequenceIndex := t.sequenceIndex + 1#32 }

/-- `startStrike(now)` (R156). -/
def startStrike (now : Time) (s : State) : Sub :=
  let n := memReadMelody s 16
  andThen (startNote (entryFrequency n) (entryDuration n) s) fun t =>
    stampNote now n { t with strikeIndex := t.strikeIndex + 1#32 }

/-- Entering the pause: a gap with no preceding note (R155). -/
def enterPause (now : Time) (s : State) : State :=
  { s with chimePhase := .pauseBeforeStrikes, playbackState := .gap, noteStartTimeMs := now }

/-- Returning to `Idle` in phase `p`, with the safety stop (R155). -/
def goIdle (p : ChimePhase) (s : State) : State :=
  stopNote { s with chimePhase := p, playbackState := .idle }

/-- `advance(now)` (R155). -/
def advance (now : Time) (s : State) : Sub :=
  match s.chimePhase with
  | .melody =>
    if s.sequenceIndex.toNat < Config.melodyLen then startMelodyNote now s else .done (enterPause now s)
  | .pauseBeforeStrikes => startStrike now { s with chimePhase := .strikes, strikeIndex := 0#32 }
  | .strikes => if s.strikeIndex < s.strikeCount then startStrike now s else .done (goIdle .complete s)
  | .none => .done (goIdle .none s)
  | .complete => .done (goIdle .none s)

/-- START_CHIME's own rule (R158): the range check, the re-entrancy guard, then the first note. -/
def startChimeRule (n : Byte) (s : State) : Sub :=
  if !strikesInRange n then .raised .strikeCountRange s
  else if s.playbackState ≠ .idle then .done s
  else advance s.nowMs { s with chimePhase := .melody, sequenceIndex := 0#32, strikeCount := n.setWidth 32 }

/-- `START_CHIME n` (R158). -/
def execStartChime (n : Byte) (s : State) : Host.Outcome State Fault Refusal :=
  command (.startChime n) (startChimeRule n) s

/-- Ending a sounding note: stop, enter `Gap`, stamp (R162-R164). -/
def enterGap (now : Time) (s : State) : State :=
  { stopNote s with playbackState := .gap, noteStartTimeMs := now }

/-- Step 1, the failsafe path (R162). -/
def pollCompleted (now : Time) (s : State) : State :=
  if s.completedFlag then enterGap now { s with completedFlag := false } else s

/-- Step 2, the repair of a note the sequencer did not start; strictly greater (R163). -/
def pollRepair (now : Time) (s : State) : State :=
  if s.active ∧ s.playbackState = .idle ∧ s.noteDurationMs.toNat < elapsed now s then enterGap now s else s

/-- Step 3, the normal note end (R164). -/
def pollNoteEnd (now : Time) (s : State) : State :=
  if s.playbackState = .playingNote ∧ s.noteDurationMs.toNat ≤ elapsed now s then enterGap now s else s

/-- Step 4, the gap end (R165). -/
def pollGapEnd (now : Time) (s : State) : Sub :=
  if s.playbackState = .gap ∧ gapLength s ≤ elapsed now s then advance now s else .done s

/-- Step 5, the end of the cycle (R166). -/
def pollCycleEnd (s : State) : State :=
  if s.playbackState = .idle ∧ s.chimePhase = .complete then { s with chimePhase := .none } else s

/-- UPDATE's own rule: the five steps in order, with one reading of the clock (R161, R167). -/
def updateRule (s : State) : Sub :=
  let now := s.nowMs
  andThen (pollGapEnd now (pollNoteEnd now (pollRepair now (pollCompleted now s)))) pollCycleEnd

/-- `UPDATE` (R161). -/
def execUpdate (s : State) : Host.Outcome State Fault Refusal :=
  command .update updateRule s

end Sys2Proof.Machine
end

