-- ==== Sys2Proof/Machine/Dispatch.lean ====
section
/-! DEFINITION. One arm per command, each one call of its meaning. -/

namespace Sys2Proof.Machine

def exec (i : Instr) (s : State) : Host.Outcome State Fault Refusal :=
  match i with
  | .begin pin => Sys2Proof.Machine.execBegin pin s
  | .setVolume percent => Sys2Proof.Machine.execSetVolume percent s
  | .startNote freq dur => Sys2Proof.Machine.execStartNote freq dur s
  | .stopNote => Sys2Proof.Machine.execStopNote s
  | .update => Sys2Proof.Machine.execUpdate s
  | .startChime strikes => Sys2Proof.Machine.execStartChime strikes s
  | .readReg index => Sys2Proof.Machine.execReadReg index s
  | .isPlaying => Sys2Proof.Machine.execIsPlaying s

end Sys2Proof.Machine
end

