-- ==== Sys2Proof/Machine/SampleTick.lean ====
section
/-! DEFINITION. The sample tick and its failsafe counter (41_sample_tick.md R130-R135). The tick is no command (R91). -/

namespace Sys2Proof.Machine

/-- `TICK` has a step iff the block has begun and is not faulted (R130). -/
def tickEnabled (s : State) : Bool := s.begun && s.faultCode == 0#8

/-- Counting an active tick, mod 2^32 (R131, R132). -/
def countSample (s : State) : State := { s with sampleCount := s.sampleCount + 1#32 }

/-- The failsafe stop: no phase advance and no tone sample (R132). -/
def failsafeStop (s : State) : State :=
  outWrite s.params.neutral { s with active := false, completedFlag := true }

/-- The phase add, mod 2^32 (R133). -/
def advancePhase (s : State) : State := { s with phaseAccumulator := s.phaseAccumulator + s.phaseIncrement }

/-- The byte a tone tick writes for the present phase (R134, R135). -/
def toneByte (s : State) : Byte :=
  scale s.params (memReadWave s (tableIndex s.phaseAccumulator)) s.amplitude

/-- A tone tick: the add comes before the lookup (R133-R135). -/
def toneSample (s : State) : State := outWrite (toneByte (advancePhase s)) (advancePhase s)

/-- `TICK()` (R131), for a block in which it has a step. -/
def tick (s : State) : State :=
  if !s.active then s
  else if s.sampleTarget ≤ (countSample s).sampleCount then failsafeStop (countSample s)
  else toneSample (countSample s)

end Sys2Proof.Machine
end

