-- ==== Sys2Proof/Machine/Agents.lean ====
section
/-! DEFINITION. The three agents of 00_scope.md R7: one turn of TICK, of CLOCK and of HOST; the hourly trigger, which is a
host agent (48_host_trigger.md); and whose turn it is. -/

namespace Sys2Proof.Machine

/-- The fault of a word that is no command (30_encoding.md R84, R87). -/
def decodeFault : DecodeError → FaultCode
  | .illegalOpcode => .illegalOpcode
  | .reservedBits => .reservedBits

/-- Whether HOST has a step for the word: any word of a block without a fault, and READ_REG 0x00 to 0x0F and IS_PLAYING of
a faulted one (R84, R224). -/
def hostAccepts (w : CommandWord) (s : State) : Bool :=
  s.faultCode == 0#8 || match decode w with
    | .ok i => legalWhenFaulted i
    | .error _ => false

/-- A command word the block takes: it is decoded, and it faults or runs (R84). -/
def runWord (w : CommandWord) (s : State) : Host.Outcome State Fault Refusal :=
  match decode w with
  | .error e => .next (raiseFault (decodeFault e) s)
  | .ok i => exec i s

/-- The hour lies in the quiet window, which may wrap midnight and is empty if its ends agree (48_host_trigger.md R202). -/
def inQuiet (P : Params) (h : Nat) : Bool :=
  if P.quietStart < P.quietEnd then P.quietStart ≤ h && h < P.quietEnd
  else if P.quietEnd < P.quietStart then P.quietStart ≤ h || h < P.quietEnd
  else false

/-- `strikes(h)`: the hour on a 12-hour clock face (R204). -/
def strikesFor (h : Nat) : Nat := if h % 12 = 0 then 12 else h % 12

/-- The wall clock is in range (R200). -/
def wallClockOk (h m sec : Nat) : Bool := h ≤ 23 && m ≤ 59 && sec ≤ 59

/-- The conditions of `maybeChime` before it asks the block (R203). -/
def chimeDue (h m sec : Nat) (s : State) : Bool :=
  m == 0 && decide (sec < s.params.chimeWindowS) && s.lastChimedHour != some h && !inQuiet s.params h

/-- The first half of `maybeChime`: if the chime is due, give the block IS_PLAYING and go on from its answer (R203, log
entry 10). -/
def maybeChime (h m sec : Nat) (s : State) : State :=
  if chimeDue h m sec s then { s with hostQueue := .word (encode .isPlaying) :: .chimeIfIdle h :: s.hostQueue } else s

/-- The second half of `maybeChime`: unless a chime is playing, record the hour and give the block START_CHIME (R203). -/
def chimeIfIdle (h : Nat) (s : State) : State :=
  if s.resp = 1#32 then s
  else { s with
    lastChimedHour := some h
    hostQueue := .word (encode (.startChime (BitVec.ofNat 8 (strikesFor h)))) :: s.hostQueue }

/-- One turn of `HOST`: what its queue holds next. With nothing queued, or with a word it has no step for, nothing changes
(R84, log entries 2 and 4). -/
def hostTurn (s : State) : Host.Outcome State Fault Refusal :=
  match s.hostQueue with
  | [] => .next s
  | .word w :: rest => if hostAccepts w s then runWord w { s with hostQueue := rest } else .next s
  | .maybeChime h m sec :: rest =>
    if wallClockOk h m sec then .next (maybeChime h m sec { s with hostQueue := rest })
    else .refused .wallClockOutOfRange
  | .chimeIfIdle h :: rest => .next (chimeIfIdle h { s with hostQueue := rest })

/-- One turn of `TICK` (41_sample_tick.md R130); without a step, nothing changes (log entry 2). -/
def tickTurn (s : State) : Host.Outcome State Fault Refusal :=
  .next (if tickEnabled s then tick s else s)

/-- One turn of `CLOCK` (60_exceptions.md R231). A run of 2^64 ms is refused (S15, log entry 9). -/
def clockTurn (s : State) : Host.Outcome State Fault Refusal :=
  if s.runMs + 1 < Config.runLimitMs then .next { s with nowMs := s.nowMs + 1#64, runMs := s.runMs + 1 }
  else .refused .runTooLong

/-- One turn of an agent: an atomic transition (00_scope.md R7, R8). -/
def agentTurn (a : Agent) (s : State) : Host.Outcome State Fault Refusal :=
  match a with
  | .tick => tickTurn s
  | .host => hostTurn s
  | .clock => clockTurn s

/-- Whose turn it is, and the state with that choice used up: the schedule's next agent, or a free one (R7, log entry 1). -/
def nextTurn (s : State) : Agent × State :=
  match s.schedule with
  | a :: rest => (a, { s with schedule := rest })
  | [] => (Config.freeAgent s.drawCount, { s with drawCount := s.drawCount + 1 })

end Sys2Proof.Machine
end

