-- ==== Sys2Proof/Machine/Step.lean ====
section
/-! DEFINITION. One step of the machine, and how the host places a command where the next step takes it. -/

namespace Sys2Proof.Machine

/-- One step: the agent whose turn it is takes its turn (00_scope.md R7, R9). -/
def step (s : State) : Host.Outcome State Fault Refusal := agentTurn (nextTurn s).1 (nextTurn s).2

/-- The state with a command word, numbered as the opcode table numbers it, first in the host's queue, and HOST's turn
next (log entry 4). -/
def State.withFetchWord (s : State) (_nbits w : Nat) : State :=
  { s with hostQueue := .word (BitVec.ofNat 40 w) :: s.hostQueue, schedule := .host :: s.schedule }

end Sys2Proof.Machine
end

