-- ==== Sys2Proof/Asm.lean ====
section
/-! DEFINITION. The assembler syntax, the pseudo-instruction and the directives of 30_encoding.md R89 and R90 (log entry
17). A line of text becomes a command, a directive, or nothing. -/

namespace Sys2Proof.Asm

/-- A line of a test program: a command, or a directive that fixes an interleaving (R90). -/
inductive Line where
  /-- Nothing but blanks and a comment. -/
  | blank
  /-- One command. -/
  | command (i : Instr)
  /-- `TICKS k`: the TICK agent takes `k` steps here. -/
  | ticks (k : Nat)
  /-- `CLOCK k`: the CLOCK agent takes `k` steps here. -/
  | clock (k : Nat)
  deriving DecidableEq, Repr

/-- A token read so far, if any, put before the later ones. -/
def flush (token : List Char) (later : List String) : List String :=
  if token = [] then later else String.ofList token.reverse :: later

/-- The tokens of a line: words and commas. A semicolon starts a comment (R89). -/
def tokens : List Char → List Char → List String
  | [], token => flush token []
  | c :: cs, token =>
    if c = ';' then flush token []
    else if c = ',' then flush token ("," :: tokens cs [])
    else if c = ' ' ∨ c = '\t' ∨ c = '\r' then flush token (tokens cs [])
    else tokens cs (c :: token)

/-- A digit's value in a base of at most 16. -/
def digit (base : Nat) (c : Char) : Option Nat :=
  let n := c.toNat
  let v :=
    if 48 ≤ n ∧ n ≤ 57 then n - 48
    else if 65 ≤ n ∧ n ≤ 70 then n - 55
    else if 97 ≤ n ∧ n ≤ 102 then n - 87
    else 16
  if v < base then some v else none

/-- The digits of a number, most significant first, after the value `acc`. -/
def digits (base : Nat) : List Char → Nat → Option Nat
  | [], acc => some acc
  | c :: cs, acc =>
    match digit base c with
    | some v => digits base cs (acc * base + v)
    | none => none

/-- A decimal or `0x` hexadecimal integer (R89). -/
def number (t : String) : Option Nat :=
  match t.toList with
  | [] => none
  | ['0', 'x'] => none
  | '0' :: 'x' :: hex => digits 16 hex 0
  | dec => digits 10 dec 0

/-- The register names of 10_state.md R45, by index (R89). -/
def registerNames : List (String × Nat) :=
  [("PHASE_ACC", 0x00), ("PHASE_INC", 0x01), ("AMPLITUDE", 0x02), ("OSC_FLAGS", 0x03),
   ("SAMPLE_COUNT", 0x04), ("SAMPLE_TARGET", 0x05), ("VOLUME", 0x06), ("OUTPUT", 0x07),
   ("SEQ_STATE", 0x08), ("SEQ_INDEX", 0x09), ("STRIKE_INDEX", 0x0A), ("STRIKE_COUNT", 0x0B),
   ("NOTE_START_LO", 0x0C), ("NOTE_START_HI", 0x0D), ("NOTE_DURATION", 0x0E), ("STATUS", 0x0F)]

/-- A register index, as a number or by name (R89). -/
def registerIndex (t : String) : Option Nat :=
  match registerNames.lookup t with
  | some n => some n
  | none => number t

/-- A byte operand that fits its field (30_encoding.md R82). -/
def byteOperand (n : Option Nat) : Option Byte :=
  match n with
  | some v => if fitsByte v then some (BitVec.ofNat 8 v) else none
  | none => none

/-- A note operand that fits its field (30_encoding.md R83). -/
def halfOperand (n : Option Nat) : Option Half :=
  match n with
  | some v => if fitsHalf v then some (BitVec.ofNat 16 v) else none
  | none => none

/-- A line with no operand (R89). -/
def plainLine (name : String) : Option Line :=
  if name = "STOP_NOTE" then some (.command .stopNote)
  else if name = "UPDATE" then some (.command .update)
  else if name = "IS_PLAYING" then some (.command .isPlaying)
  else none

/-- A line with one operand, `PLAY_DEBUG_CHIME` and the directives among them (R89, R90). -/
def oneOperandLine (name operand : String) : Option Line :=
  if name = "BEGIN" then (byteOperand (number operand)).map fun b => .command (.begin b)
  else if name = "SET_VOLUME" then (byteOperand (number operand)).map fun b => .command (.setVolume b)
  else if name = "START_CHIME" then (byteOperand (number operand)).map fun b => .command (.startChime b)
  else if name = "PLAY_DEBUG_CHIME" then (byteOperand (number operand)).map fun b => .command (.startChime b)
  else if name = "READ_REG" then (byteOperand (registerIndex operand)).map fun b => .command (.readReg b)
  else if name = "TICKS" then (number operand).map .ticks
  else if name = "CLOCK" then (number operand).map .clock
  else none

/-- A line with two operands (R89). -/
def twoOperandLine (name first second : String) : Option Line :=
  if name = "START_NOTE" then
    match halfOperand (number first), halfOperand (number second) with
    | some f, some d => some (.command (.startNote f d))
    | _, _ => none
  else none

/-- A line of assembler text; none where it is no line of R89 or R90. -/
def parseLine (text : String) : Option Line :=
  match tokens text.toList [] with
  | [] => some .blank
  | [name] => plainLine name
  | [name, operand] => oneOperandLine name operand
  | [name, first, ",", second] => twoOperandLine name first second
  | _ => none

end Sys2Proof.Asm
end

