-- ==== Sys2Proof/Safety.lean ====
section
/-! DEFINITION. The terms claims are stated in: the invariant of 10_state.md R54, what a stopped, started or silenced
note leaves, polls of a chime cycle, the fires of the hourly trigger (48_host_trigger.md R205), the end and the
observation of a run (70_reset_and_hazards.md R263), and infinite runs with their fairness (R262). -/

namespace Sys2Proof.Machine

/-- The block has begun and holds no fault: every command and the tick have their own effect (30_encoding.md R84, R130). -/
abbrev running (s : State) : Prop := s.faultCode = 0#8 ∧ s.begun = true

/-- Item 6 of R54 word for word. START_CHIME breaks it, since it does not reset `strikeIndex` (R158; log entry 18). -/
abbrev strikesWithinCount (s : State) : Prop :=
  s.sequenceIndex.toNat ≤ 16 ∧ s.strikeIndex.toNat ≤ s.strikeCount.toNat ∧ s.strikeCount.toNat ≤ 12

/-- The strikes started in the current cycle (10_state.md R35): `strikeIndex`, but none before the cycle enters Strikes,
when `strikeIndex` may still hold the last cycle's (42_sequencer.md R158; log entry 18). -/
def strikesStarted (s : State) : Nat :=
  match s.chimePhase with
  | .melody | .pauseBeforeStrikes => 0
  | .strikes | .complete | .none => s.strikeIndex.toNat

/-- R54's items, with item 6 as the rules of 42_sequencer.md keep it: `strikeIndex` is at most `strikeCount` from the
entry to Strikes until the next START_CHIME; in Melody and PauseBeforeStrikes it may still be the last cycle's, at most
12 (R158). A started cycle has at least one strike (R35, R36; log entry 18). -/
abbrev healthy (s : State) : Prop :=
  (s.amplitude.toNat ≤ 127 ∧ s.volume.toNat ≤ 100) ∧
  (s.active = true → 0 < s.sampleTarget.toNat ∧ s.sampleCount.toNat < s.sampleTarget.toNat) ∧
  (s.completedFlag = true → s.active = false) ∧
  (s.playbackState = .gap → s.active = false ∧ s.completedFlag = false) ∧
  (s.playbackState = .playingNote → s.active = true ∨ s.completedFlag = true) ∧
  (s.sequenceIndex.toNat ≤ 16 ∧ s.strikeIndex.toNat ≤ 12 ∧ s.strikeCount.toNat ≤ 12 ∧
    (s.chimePhase ≠ .melody → s.chimePhase ≠ .pauseBeforeStrikes → s.strikeIndex.toNat ≤ s.strikeCount.toNat) ∧
    (s.chimePhase ≠ .none → 1 ≤ s.strikeCount.toNat)) ∧
  s.chimePhase ≠ .complete ∧
  ¬(s.playbackState = .idle ∧ s.chimePhase ≠ .none)

/-- The invariant of a run: R54 speaks of states without a fault. -/
abbrev Inv (s : State) : Prop := s.faultCode = 0#8 → healthy s

/-- Every melody note and the strike note has legal note parameters, so starting it raises nothing (R103, R150, R151). -/
abbrev playable (s : State) : Prop :=
  ∀ i : Fin 17,
    (noteParams s.params (entryFrequency (memReadMelody s i)) (entryDuration (memReadMelody s i))).isOk = true

/-- The four gaps are positive and below the clock's range (R152, R170). -/
abbrev gapsInRange (P : Params) : Prop :=
  (0 < P.gapNote ∧ P.gapNote < 2 ^ 64) ∧ (0 < P.gapPhrase ∧ P.gapPhrase < 2 ^ 64) ∧
  (0 < P.gapPause ∧ P.gapPause < 2 ^ 64) ∧ (0 < P.gapStrike ∧ P.gapStrike < 2 ^ 64)

/-- What R107 says a stop leaves: silence at once and phase 0. -/
def silenced (s : State) : State :=
  { s with
    active := false
    phaseAccumulator := 0#32
    output := s.params.neutral
    outTrace := s.outTrace ++ [s.params.neutral] }

/-- What steps 1 to 3 of UPDATE leave of a note they end: silence, `Gap`, and the stamp (R162-R164). -/
def gapEntered (now : Time) (s : State) : State :=
  { silenced s with playbackState := .gap, noteStartTimeMs := now }

/-- What R105 says a note start leaves, with an increment and a target. -/
def noteStarted (inc tgt : Word) (s : State) : State :=
  { s with
    phaseIncrement := inc
    amplitude := BitVec.ofNat 8 (s.volume.toNat * 127 / 100)
    sampleCount := 0#32
    sampleTarget := tgt
    completedFlag := false
    active := true }

/-- What the sequencer adds when it starts ROM entry `n` at `now` (R155, R156). -/
def notePlaying (now : Time) (n inc tgt : Word) (s : State) : State :=
  { noteStarted inc tgt s with
    playbackState := .playingNote
    noteStartTimeMs := now
    noteDurationMs := (entryDuration n).setWidth 32 }

/-- The note parameters of ROM entry `n` are `inc` and `tgt` (R103). -/
abbrev entryParams (s : State) (n inc tgt : Word) : Prop :=
  noteParams s.params (entryFrequency n) (entryDuration n) = .ok (inc, tgt)

/-- How long the sequencer waits in this state before its next move (R164, R165). -/
def dueMs (s : State) : Nat :=
  match s.playbackState with
  | .idle => 0
  | .playingNote => s.noteDurationMs.toNat
  | .gap => gapLength s

/-- UPDATE, given at time `now` after `k` ticks, finds the next move of a cycle due: the note or the gap has lasted its
time, or the failsafe has ended the note (R162, R164, R165, 70_reset_and_hazards.md R261). -/
abbrev moveDue (k : Nat) (now : Time) (s : State) : Prop :=
  dueMs s ≤ elapsed now s ∨ (Nat.iterate tick k s).completedFlag = true

/-- UPDATE, given at time `now` after `k` ticks. -/
abbrev updateAfter (k : Nat) (now : Time) (s : State) : Host.Outcome State Fault Refusal :=
  exec .update { Nat.iterate tick k s with nowMs := now }

/-- One move of a chime cycle: any number of ticks, then an UPDATE at any time that finds the move due. -/
def CyclePoll (s t : State) : Prop :=
  ∃ (k : Nat) (now : Time), moveDue k now s ∧ updateAfter k now s = .next t

/-- What the sequencer is doing: sub-state, phase, melody notes started, strikes started (R21). -/
def position (s : State) : PlaybackState × ChimePhase × Nat × Nat :=
  (s.playbackState, s.chimePhase, s.sequenceIndex.toNat, s.strikeIndex.toNat)

/-- `OUTPUT` is the newest entry of `outTrace`, once there is one (R28, R43). -/
abbrev outputIsNewest (s : State) : Prop := s.outTrace = [] ∨ s.outTrace.getLast? = some s.output

/-- The machine has ended a run of a host program: the first such state is the run's end (R263). -/
abbrev ended (s : State) : Prop :=
  s.hostQueue = [] ∧ s.faultCode = 0#8 ∧ s.playbackState = .idle ∧ s.chimePhase = .none ∧
  s.active = false ∧ s.completedFlag = false

/-- The response a step puts on the response port, if it puts one (R42, R263): a HOST turn running READ_REG or IS_PLAYING. -/
def responseOf (s t : State) : List Word :=
  match (nextTurn s).1, s.hostQueue with
  | .host, .word w :: _ =>
    match decode w with
    | .ok (.readReg _) => if hostAccepts w s && t.faultCode == s.faultCode then [t.resp] else []
    | .ok .isPlaying => [t.resp]
    | _ => []
  | _, _ => []

/-- What the first `k` steps show: the state they lead to (its `outTrace` with it) and the responses in order; none if the
machine stops before. -/
def observe : Nat → State → Option (State × List Word)
  | 0, s => some (s, [])
  | k + 1, s =>
    match step s with
    | .next t => (observe k t).map fun r => (r.1, responseOf s t ++ r.2)
    | .fault _ => none
    | .refused _ => none

/-- The observation of a run, which ends at its first ended state: that final state (its `outTrace` with it) and the
responses in order (R263); none if no state within `fuel` steps is ended. -/
def observeRun : Nat → State → Option (State × List Word)
  | 0, s => if ended s then some (s, []) else none
  | fuel + 1, s =>
    if ended s then some (s, [])
    else match step s with
      | .next t => (observeRun fuel t).map fun r => (r.1, responseOf s t ++ r.2)
      | .fault _ => none
      | .refused _ => none

/-- No second half of a `maybeChime` call is queued. -/
abbrev noHalfCall (queue : List HostAction) : Prop := ∀ h, HostAction.chimeIfIdle h ∉ queue

/-- The host calls `maybeChime` whole: the second half of a call is queued only right behind the IS_PLAYING the first half
gave, for an hour that is not the recorded one (48_host_trigger.md R203; log entry 10). -/
def triggerOrderly (s : State) : Prop :=
  match s.hostQueue with
  | .chimeIfIdle h :: queue => s.lastChimedHour ≠ some h ∧ noHalfCall queue
  | .word w :: .chimeIfIdle h :: queue =>
    w = encode .isPlaying ∧ s.lastChimedHour ≠ some h ∧ noHalfCall queue
  | queue => noHalfCall queue

/-- The next step is a fire of the trigger for hour `h`: the second half of its call, which IS_PLAYING answered with other
than 1 (R203; log entry 10). -/
def fires (h : Nat) (s : State) : Prop :=
  (nextTurn s).1 = .host ∧ (∃ queue, s.hostQueue = .chimeIfIdle h :: queue) ∧ s.resp ≠ 1#32

/-- An infinite run: at each step the host may queue what it likes, and some agent takes its turn (R7, R262). -/
def IsRun (state : Nat → State) (who : Nat → Agent) (queue : Nat → List HostAction) : Prop :=
  ∀ n, agentTurn (who n) { state n with hostQueue := queue n } = .next (state (n + 1))

/-- Turn `m` is HOST's and gives the block UPDATE. -/
abbrev polls (who : Nat → Agent) (queue : Nat → List HostAction) (m : Nat) : Prop :=
  who m = .host ∧ ∃ rest, queue m = .word (encode .update) :: rest

/-- The fairness of R262: TICK once begun and while there is no fault, CLOCK while the run is within the model's scope
(S15), and UPDATE from the host while a cycle runs. -/
def FairRun (state : Nat → State) (who : Nat → Agent) (queue : Nat → List HostAction) : Prop :=
  (∀ n, (∀ m, n ≤ m → running (state m)) → ∃ m, n ≤ m ∧ who m = .tick) ∧
  (∀ n, (∀ m, n ≤ m → (state m).runMs + 1 < Config.runLimitMs) → ∃ m, n ≤ m ∧ who m = .clock) ∧
  (∀ n, (∀ m, n ≤ m → running (state m) ∧ playing (state m) = true) →
    ∃ m, n ≤ m ∧ polls who queue m)

/-- Polls come at most `D` ms apart while a cycle runs: from every step on, within `D` ms of the clock, the host gives
UPDATE or the cycle has returned. R262 bounds nothing here; a run of the scope S15 sets needs it (log entry 21). -/
def PollsWithin (D : Nat) (state : Nat → State) (who : Nat → Agent) (queue : Nat → List HostAction) : Prop :=
  ∀ n, ∃ m, n ≤ m ∧ (state m).runMs ≤ (state n).runMs + D ∧ (polls who queue m ∨ playing (state m) = false)

/-- The current note or gap began in this run (42_sequencer.md R168: "every stamp is an earlier `nowMs`"). -/
abbrev stampedInRun (s : State) : Prop := playing s = true → elapsed s.nowMs s ≤ s.runMs

/-- No gap is longer than `G` ms. -/
abbrev gapsAtMost (G : Nat) (P : Params) : Prop :=
  P.gapNote ≤ G ∧ P.gapPhrase ≤ G ∧ P.gapPause ≤ G ∧ P.gapStrike ≤ G

end Sys2Proof.Machine
end

