-- ==== Sys2Proof/Certificates/Slice0/Obligations.lean ====
section
/-! DEFINITION. The statements for the provers, from the numbered rules of spec/. -/

open Sys2Proof Sys2Proof.Machine

section Encoding

/-- 30_encoding.md R80-R86: the word of every command, with every operand value, decodes to that command. -/
def Obligations.EncodedCommandDecodesToItself : Prop :=
  ∀ i : Instr, decode (encode i) = .ok i

/-- 30_encoding.md R81-R87: the words that decode are exactly the legal encodings, said bit by bit, and each is the one
word of its command. -/
def Obligations.LegalWordsAreExactlyTheDecodedOnes : Prop :=
  ∀ w : CommandWord,
    (wordWellFormed w = true ↔ ∃ i, decode w = .ok i) ∧ (∀ i, decode w = .ok i → encode i = w)

/-- 30_encoding.md R84, R87: in a block without a fault, a word with an illegal opcode raises ILLEGAL_OPCODE, and a legal
opcode with a reserved bit set raises RESERVED_BITS, whether or not the block has begun (V7.9). Only the code is written. -/
def Obligations.WordThatIsNoCommandFaults : Prop :=
  ∀ (s : State) (w : CommandWord) (turns : List Agent) (queue : List HostAction),
    s.schedule = .host :: turns → s.hostQueue = .word w :: queue → s.faultCode = 0#8 →
    (opcodeLegal w = false → step s = .next { s with schedule := turns, hostQueue := queue, faultCode := 0x01#8 }) ∧
    (opcodeLegal w = true → wordWellFormed w = false →
      step s = .next { s with schedule := turns, hostQueue := queue, faultCode := 0x02#8 })

/-- 30_encoding.md R92: the worked encodings decode to their commands, and the two bad words raise their faults. -/
def Obligations.WorkedEncodingsDecode : Prop :=
  decode 0x0100000019#40 = .ok (.begin 25#8) ∧ decode 0x020000000A#40 = .ok (.setVolume 10#8) ∧
  decode 0x03014A0258#40 = .ok (.startNote 330#16 600#16) ∧ decode 0x0400000000#40 = .ok .stopNote ∧
  decode 0x0500000000#40 = .ok .update ∧ decode 0x0600000003#40 = .ok (.startChime 3#8) ∧
  decode 0x0700000008#40 = .ok (.readReg 0x08#8) ∧ decode 0x0800000000#40 = .ok .isPlaying ∧
  ∀ s : State, s.faultCode = 0#8 →
    runWord 0x0500000001#40 s = .next { s with faultCode := 0x02#8 } ∧
    runWord 0x0900000000#40 s = .next { s with faultCode := 0x01#8 }

end Encoding

section Agents

/-- 30_encoding.md R80, R84: when it is HOST's turn and the host gives a word that decodes to a command the block takes,
the step is that command on the state with the turn and the word used up. -/
def Obligations.HostTurnRunsTheDecodedCommand : Prop :=
  ∀ (s : State) (w : CommandWord) (i : Instr) (turns : List Agent) (queue : List HostAction),
    s.schedule = .host :: turns → s.hostQueue = .word w :: queue → decode w = .ok i →
    (s.faultCode = 0#8 ∨ i = .isPlaying ∨ ∃ r : Byte, r.toNat ≤ 0x0F ∧ i = .readReg r) →
    step s = exec i { s with schedule := turns, hostQueue := queue }

/-- 00_scope.md R7, R9: every step is one turn of one agent. Whose turn it is comes from the schedule or, when that is
empty, from a free value: any of the three (log entry 1, the model's choice). -/
def Obligations.EveryStepIsOneAgentTurn : Prop :=
  ∀ s : State,
    (∀ a turns, s.schedule = a :: turns → step s = agentTurn a { s with schedule := turns }) ∧
    (s.schedule = [] → ∃ a, step s = agentTurn a { s with drawCount := s.drawCount + 1 })

/-- 30_encoding.md R84, 60_exceptions.md R224: in a faulted block HOST has no step for any word but READ_REG 0x00 to 0x0F
and IS_PLAYING, said by their bits. Its turn then leaves everything as it was, the word still waiting (log entry 2, the
model's choice of how a turn without a step passes). -/
def Obligations.StuckHostLeavesTheBlockAlone : Prop :=
  ∀ (s : State) (w : CommandWord) (turns : List Agent) (queue : List HostAction),
    s.schedule = .host :: turns → s.hostQueue = .word w :: queue → s.faultCode ≠ 0#8 →
    ¬(w.toNat / 2 ^ 32 = 0x07 ∧ w.toNat % 2 ^ 32 ≤ 0x0F) → ¬(w.toNat = 0x08 * 2 ^ 32) →
    step s = .next { s with schedule := turns }

/-- 41_sample_tick.md R130: before BEGIN and after a fault TICK has no step; its turn leaves the block as it was (log
entry 2, the model's choice of how a turn without a step passes). -/
def Obligations.TickNeedsABegunFaultFreeBlock : Prop :=
  ∀ (s : State) (turns : List Agent), s.schedule = .tick :: turns →
    (s.begun = false ∨ s.faultCode ≠ 0#8) → step s = .next { s with schedule := turns }

/-- 60_exceptions.md R231: a CLOCK step adds 1 to `nowMs` mod 2^64 and changes nothing else of the block, and no command
and no tick writes `nowMs`. The bound on `runMs` is the model's counter for S15 (log entry 9). -/
def Obligations.OnlyTheClockMovesTheTime : Prop :=
  (∀ (s : State) (turns : List Agent), s.schedule = .clock :: turns → s.runMs + 1 < 2 ^ 64 →
    step s = .next { s with schedule := turns, nowMs := s.nowMs + 1#64, runMs := s.runMs + 1 }) ∧
  (∀ (i : Instr) (s t : State), exec i s = .next t → t.nowMs = s.nowMs) ∧
  (∀ s : State, (tick s).nowMs = s.nowMs)

/-- 00_scope.md R9, 30_encoding.md R84: a step never refuses a command word; it refuses only a run of 2^64 ms (S15) and a
wall clock out of range (S16). That no step stops with a fault is the model's choice of form: R9 lists a fault as an
outcome that stops the block, and in the model a raised fault is a next state with its code recorded (log entry 12), and
the turn of an agent without a step passes (log entry 2). -/
def Obligations.StepStopsOnlyOutsideTheScope : Prop :=
  ∀ s : State,
    (∃ t, step s = .next t) ∨
    (step s = .refused .runTooLong ∧ 2 ^ 64 ≤ s.runMs + 1) ∨
    (step s = .refused .wallClockOutOfRange ∧
      ∃ h m sec rest, s.hostQueue = .maybeChime h m sec :: rest ∧ ¬(h ≤ 23 ∧ m ≤ 59 ∧ sec ≤ 59))

end Agents

section Tick

/-- 41_sample_tick.md R131-R135: an inactive tick changes nothing, the stop tick stops the note and writes the neutral
level, and a tone tick adds the increment and then writes the scaled table sample; nothing else changes. -/
def Obligations.TickFollowsItsRule : Prop :=
  ∀ (s : State) (turns : List Agent), s.schedule = .tick :: turns → running s →
    (s.active = false → step s = .next { s with schedule := turns }) ∧
    (s.active = true → s.sampleTarget.toNat ≤ (s.sampleCount + 1#32).toNat →
      step s = .next { s with
        schedule := turns
        sampleCount := s.sampleCount + 1#32
        active := false
        completedFlag := true
        output := s.params.neutral
        outTrace := s.outTrace ++ [s.params.neutral] }) ∧
    (s.active = true → (s.sampleCount + 1#32).toNat < s.sampleTarget.toNat →
      ∃ (k : Fin 64) (v : Byte),
        k.val = (s.phaseAccumulator + s.phaseIncrement).toNat / 2 ^ 26 ∧
        v = scale s.params (s.waveRom.get k) s.amplitude ∧
        step s = .next { s with
          schedule := turns
          sampleCount := s.sampleCount + 1#32
          phaseAccumulator := s.phaseAccumulator + s.phaseIncrement
          output := v
          outTrace := s.outTrace ++ [v] })

/-- 40_oscillator.md R102: the scaler's output is the quotient plus the neutral level, clamped and never wrapped, for both
roundings; amplitude 0 is silence; at most 64 never clamps a legal table sample; over 90 the peak clamps at 255. -/
def Obligations.ScalerClampsAndNeverWraps : Prop :=
  ∀ (P : Params) (sample amp : Byte), P.outMin.toNat ≤ P.outMax.toNat →
    (P.scaleDiv = .trunc → ((scale P sample amp).toNat : Int) =
      max (P.outMin.toNat : Int) (min (P.outMax.toNat : Int) ((sample.toInt * amp.toNat).tdiv 64 + P.neutral.toNat))) ∧
    (P.scaleDiv = .floor → ((scale P sample amp).toNat : Int) =
      max (P.outMin.toNat : Int) (min (P.outMax.toNat : Int) ((sample.toInt * amp.toNat) / 64 + P.neutral.toNat))) ∧
    (P.neutral = 128#8 → P.outMin = 0#8 → P.outMax = 255#8 → -91 ≤ sample.toInt → sample.toInt ≤ 91 →
      (amp = 0#8 → scale P sample amp = 128#8) ∧
      (amp.toNat ≤ 64 → 37 ≤ (scale P sample amp).toNat ∧ (scale P sample amp).toNat ≤ 219) ∧
      (91 ≤ amp.toNat → sample.toInt = 91 → scale P sample amp = 255#8))

/-- 41_sample_tick.md R136, R132, R133: a note with target `T` and no ticks counted takes exactly `T` ticks. The first
`T - 1` are tone ticks, each writing one sample and adding the increment, none setting `completedFlag`; tick `T` is the
stop tick; every later tick changes nothing. -/
def Obligations.NoteEndsAfterExactlyItsTarget : Prop :=
  ∀ s : State, s.active = true → s.sampleCount = 0#32 → 0 < s.sampleTarget.toNat →
    (∀ k, k < s.sampleTarget.toNat →
      let t := Nat.iterate tick k s
      t.active = true ∧ t.completedFlag = s.completedFlag ∧ t.sampleCount.toNat = k ∧
      t.phaseAccumulator.toNat = (s.phaseAccumulator.toNat + k * s.phaseIncrement.toNat) % 2 ^ 32 ∧
      t.outTrace.length = s.outTrace.length + k) ∧
    (let t := Nat.iterate tick s.sampleTarget.toNat s;
      t.active = false ∧ t.completedFlag = true ∧ t.sampleCount = s.sampleTarget ∧ t.output = s.params.neutral ∧
      t.phaseAccumulator = (Nat.iterate tick (s.sampleTarget.toNat - 1) s).phaseAccumulator ∧
      t.outTrace = (Nat.iterate tick (s.sampleTarget.toNat - 1) s).outTrace ++ [s.params.neutral]) ∧
    (∀ k, s.sampleTarget.toNat ≤ k → Nat.iterate tick k s = Nat.iterate tick s.sampleTarget.toNat s)

/-- 41_sample_tick.md R139, 70_reset_and_hazards.md R262: in a run without a fault in which TICK moves again and again,
every note ends, whatever the other agents do. -/
def Obligations.EveryNoteEndsIfTicksGoOn : Prop :=
  ∀ (state : Nat → State) (who : Nat → Agent) (queue : Nat → List HostAction),
    IsRun state who queue → (∀ n, running (state n) ∧ gapsInRange (state n).params) → (∀ n, ∃ m, n ≤ m ∧ who m = .tick) →
    ∀ n, (state n).active = true → ∃ m, n ≤ m ∧ (state m).active = false

/-- 10_state.md R52: a tick writes the accumulator, the sample count, `completedFlag`, `active` and the sink, and nothing
else. -/
def Obligations.TickWritesOnlyItsOwnFields : Prop :=
  ∀ s : State, tick s = { s with
    phaseAccumulator := (tick s).phaseAccumulator
    sampleCount := (tick s).sampleCount
    completedFlag := (tick s).completedFlag
    active := (tick s).active
    output := (tick s).output
    outTrace := (tick s).outTrace }

end Tick

section Oscillator

/-- 00_scope.md R12, 40_oscillator.md R103: the increment and the target are the nearest integers to their rationals, a
tie rounding up, for every sample rate; at 44000 Hz the target is 44 times the duration, and the increment leaves 32 bits
exactly from 44000 Hz on. -/
def Obligations.NoteParametersAreRoundedHalfUp : Prop :=
  (∀ (P : Params) (f d : Half), 0 < P.sampleRate →
    (2 * noteIncrement P f * P.sampleRate ≤ 2 * (f.toNat * 2 ^ 32) + P.sampleRate ∧
      2 * (f.toNat * 2 ^ 32) + P.sampleRate < 2 * (noteIncrement P f + 1) * P.sampleRate) ∧
    (2 * noteTarget P d * 1000 ≤ 2 * (d.toNat * P.sampleRate) + 1000 ∧
      2 * (d.toNat * P.sampleRate) + 1000 < 2 * (noteTarget P d + 1) * 1000)) ∧
  (∀ (P : Params) (f d : Half), P.sampleRate = 44000 →
    noteTarget P d = 44 * d.toNat ∧ (2 ^ 32 ≤ noteIncrement P f ↔ 44000 ≤ f.toNat))

/-- 40_oscillator.md R110: SET_VOLUME writes `volume` and nothing else, before BEGIN too and without touching the sounding
note; above 100 it raises VOLUME_RANGE. -/
def Obligations.SetVolumeWritesOnlyTheVolume : Prop :=
  (∀ p : Byte, encode (.setVolume p) = 0x02#8 ++ 0#24 ++ p) ∧
  ∀ (s : State) (p : Byte), s.faultCode = 0#8 →
    (p.toNat ≤ 100 → exec (.setVolume p) s = .next { s with volume := p }) ∧
    (100 < p.toNat → exec (.setVolume p) s = .next { s with faultCode := 0x09#8 })

/-- 40_oscillator.md R103-R105, R111: at 44000 Hz, START_NOTE with a legal note and nothing sounding writes the six note
fields and nothing else; the accumulator, the sink and the sequencer's stamps keep their values. -/
def Obligations.StartNoteSoundsTheNote : Prop :=
  ∀ (s : State) (f d : Half), running s → s.playbackState = .idle → s.active = false → s.params.sampleRate = 44000 →
    0 < f.toNat → f.toNat < 44000 → 0 < d.toNat →
    ∃ inc : Word, inc.toNat = (2 * (f.toNat * 2 ^ 32) + 44000) / 88000 ∧
      exec (.startNote f d) s = .next { s with
        phaseIncrement := inc
        amplitude := BitVec.ofNat 8 (s.volume.toNat * 127 / 100)
        sampleCount := 0#32
        sampleTarget := BitVec.ofNat 32 (44 * d.toNat)
        completedFlag := false
        active := true }

/-- 40_oscillator.md R111, 60_exceptions.md R228: START_NOTE reports the first violation in the order of R228, and writes
only the code. -/
def Obligations.StartNoteReportsTheFirstFault : Prop :=
  ∀ (s : State) (f d : Half), running s → s.params.sampleRate = 44000 →
    (s.playbackState ≠ .idle → exec (.startNote f d) s = .next { s with faultCode := 0x0B#8 }) ∧
    (s.playbackState = .idle → s.active = true → exec (.startNote f d) s = .next { s with faultCode := 0x05#8 }) ∧
    (s.playbackState = .idle → s.active = false → f.toNat = 0 →
      exec (.startNote f d) s = .next { s with faultCode := 0x06#8 }) ∧
    (s.playbackState = .idle → s.active = false → 44000 ≤ f.toNat →
      exec (.startNote f d) s = .next { s with faultCode := 0x07#8 }) ∧
    (s.playbackState = .idle → s.active = false → 0 < f.toNat → f.toNat < 44000 → d.toNat = 0 →
      exec (.startNote f d) s = .next { s with faultCode := 0x08#8 })

/-- 40_oscillator.md R107, R112: STOP_NOTE clears `active`, resets the phase and writes the neutral level at once, whether
or not a note sounds, and changes nothing else; while a cycle runs it raises HOST_NOTE_WHILE_SEQUENCING, before BEGIN
NOT_BEGUN. -/
def Obligations.StopNoteSilencesAtOnce : Prop :=
  encode .stopNote = 0x04#8 ++ 0#32 ∧
  ∀ s : State, s.faultCode = 0#8 →
    (s.begun = true → s.playbackState = .idle → exec .stopNote s = .next { s with
      active := false
      phaseAccumulator := 0#32
      output := s.params.neutral
      outTrace := s.outTrace ++ [s.params.neutral] }) ∧
    (s.begun = true → s.playbackState ≠ .idle → exec .stopNote s = .next { s with faultCode := 0x0B#8 }) ∧
    (s.begun = false → exec .stopNote s = .next { s with faultCode := 0x03#8 })

/-- 10_state.md R25, 70_reset_and_hazards.md R257: a step changes `amplitude` only by starting a note, and then to the map
of the volume at that moment; a tick does not read `volume`. -/
def Obligations.AmplitudeIsLatchedAtNoteStart : Prop :=
  (∀ s t : State, step s = .next t → t.amplitude ≠ s.amplitude →
    t.active = true ∧ t.sampleCount = 0#32 ∧ t.completedFlag = false ∧
    t.amplitude = BitVec.ofNat 8 (s.volume.toNat * 127 / 100)) ∧
  (∀ (s : State) (v : Byte), tick { s with volume := v } = { tick s with volume := v })

end Oscillator

section Sequencer

/-- 42_sequencer.md R153, R154: the gap after melody notes 3, 7 and 11 is GAP_PHRASE, after every other melody note
GAP_NOTE; the pause and the strikes have their own; None and Complete have 0. -/
def Obligations.GapLengthFollowsTheTable : Prop :=
  ∀ s : State,
    (s.chimePhase = .melody → ∀ after : Int, after = s.sequenceIndex.toNat - 1 →
      gapLength s = if after = 3 ∨ after = 7 ∨ after = 11 then s.params.gapPhrase else s.params.gapNote) ∧
    (s.chimePhase = .pauseBeforeStrikes → gapLength s = s.params.gapPause) ∧
    (s.chimePhase = .strikes → gapLength s = s.params.gapStrike) ∧
    (s.chimePhase = .none ∨ s.chimePhase = .complete → gapLength s = 0)

/-- 42_sequencer.md R158: START_CHIME from rest, with a legal count and a legal first note, enters Melody and starts
melody note 0 at once; `strikeIndex` keeps its value. -/
def Obligations.StartChimeStartsTheFirstNote : Prop :=
  ∀ (s : State) (n : Byte) (inc tgt : Word), running s → s.playbackState = .idle → s.active = false →
    1 ≤ n.toNat → n.toNat ≤ 12 → entryParams s (s.melodyRom.get 0) inc tgt →
    exec (.startChime n) s = .next (notePlaying s.nowMs (s.melodyRom.get 0) inc tgt
      { s with chimePhase := .melody, sequenceIndex := 1#32, strikeCount := n.setWidth 32 })

/-- 42_sequencer.md R160: START_CHIME with a legal count while a cycle runs changes no field. -/
def Obligations.StartChimeWhilePlayingChangesNothing : Prop :=
  ∀ (s : State) (n : Byte), running s → s.playbackState ≠ .idle → 1 ≤ n.toNat → n.toNat ≤ 12 →
    exec (.startChime n) s = .next s

/-- 42_sequencer.md R158, 60_exceptions.md R224, R228: the range check comes before the guard; a fault of the first note's
start leaves the phase, index and count that START_CHIME wrote before it. -/
def Obligations.StartChimeFaultsAndWhatTheyLeave : Prop :=
  ∀ (s : State) (n : Byte), running s →
    (n.toNat < 1 ∨ 12 < n.toNat → exec (.startChime n) s = .next { s with faultCode := 0x0A#8 }) ∧
    (1 ≤ n.toNat → n.toNat ≤ 12 → s.playbackState = .idle → s.active = true →
      exec (.startChime n) s = .next { s with
        chimePhase := .melody, sequenceIndex := 0#32, strikeCount := n.setWidth 32, faultCode := 0x05#8 }) ∧
    (1 ≤ n.toNat → n.toNat ≤ 12 → s.playbackState = .idle → s.active = false →
      ∀ c, noteParams s.params (entryFrequency (s.melodyRom.get 0)) (entryDuration (s.melodyRom.get 0)) = .error c →
      exec (.startChime n) s = .next { s with
        chimePhase := .melody, sequenceIndex := 0#32, strikeCount := n.setWidth 32, faultCode := faultByte c })

/-- 42_sequencer.md R170, the rows that leave from PlayingNote: the failsafe path, the normal end, and no move yet. -/
def Obligations.UpdateWhileANotePlays : Prop :=
  ∀ s : State, running s → gapsInRange s.params → s.playbackState = .playingNote →
    (s.chimePhase = .melody ∨ s.chimePhase = .strikes) →
    (s.completedFlag = true →
      exec .update s = .next (gapEntered s.nowMs { s with completedFlag := false })) ∧
    (s.completedFlag = false → s.noteDurationMs.toNat ≤ elapsed s.nowMs s →
      exec .update s = .next (gapEntered s.nowMs s)) ∧
    (s.completedFlag = false → elapsed s.nowMs s < s.noteDurationMs.toNat → exec .update s = .next s)

/-- 42_sequencer.md R170, the rows that leave from Gap: no move yet, the next melody note, the pause, the first strike, the
next strike, and the end of the cycle through Complete to Idle and None in one UPDATE. -/
def Obligations.UpdateInAGap : Prop :=
  ∀ s : State, running s → s.playbackState = .gap → s.active = false → s.completedFlag = false →
    (elapsed s.nowMs s < gapLength s → exec .update s = .next s) ∧
    (∀ inc tgt, s.chimePhase = .melody → gapLength s ≤ elapsed s.nowMs s → ∀ k : Fin 17,
      k.val = s.sequenceIndex.toNat → k.val < 16 → entryParams s (s.melodyRom.get k) inc tgt →
      exec .update s = .next (notePlaying s.nowMs (s.melodyRom.get k) inc tgt
        { s with sequenceIndex := s.sequenceIndex + 1#32 })) ∧
    (s.chimePhase = .melody → gapLength s ≤ elapsed s.nowMs s → s.sequenceIndex.toNat = 16 →
      exec .update s = .next { s with chimePhase := .pauseBeforeStrikes, noteStartTimeMs := s.nowMs }) ∧
    (∀ inc tgt, s.chimePhase = .pauseBeforeStrikes → s.params.gapPause ≤ elapsed s.nowMs s →
      entryParams s (s.melodyRom.get 16) inc tgt →
      exec .update s = .next (notePlaying s.nowMs (s.melodyRom.get 16) inc tgt
        { s with chimePhase := .strikes, strikeIndex := 1#32 })) ∧
    (∀ inc tgt, s.chimePhase = .strikes → s.params.gapStrike ≤ elapsed s.nowMs s →
      s.strikeIndex.toNat < s.strikeCount.toNat → entryParams s (s.melodyRom.get 16) inc tgt →
      exec .update s = .next (notePlaying s.nowMs (s.melodyRom.get 16) inc tgt
        { s with strikeIndex := s.strikeIndex + 1#32 })) ∧
    (s.chimePhase = .strikes → s.params.gapStrike ≤ elapsed s.nowMs s → s.strikeIndex = s.strikeCount →
      exec .update s = .next (silenced { s with chimePhase := .none, playbackState := .idle }))

/-- 42_sequencer.md R170, the rows that leave from Idle and None: a direct note the failsafe ended, and one the repair
branch cuts short (strictly later than its time), each with two neutral writes; otherwise nothing changes. -/
def Obligations.UpdateAtRest : Prop :=
  ∀ s : State, running s → s.playbackState = .idle → s.chimePhase = .none →
    (s.completedFlag = true → exec .update s = .next
      (silenced (silenced { s with completedFlag := false, noteStartTimeMs := s.nowMs }))) ∧
    (s.completedFlag = false → s.active = true → s.noteDurationMs.toNat < elapsed s.nowMs s →
      exec .update s = .next (silenced (silenced { s with noteStartTimeMs := s.nowMs }))) ∧
    (s.completedFlag = false → (s.active = false ∨ elapsed s.nowMs s ≤ s.noteDurationMs.toNat) →
      exec .update s = .next s)

/-- 42_sequencer.md R157: the phase axis only moves forward. From a healthy state each step keeps the phase or moves it one
place along None, Melody, PauseBeforeStrikes, Strikes, None (Complete lasts no longer than an UPDATE, R166), unless the
step ends in a fault. -/
def Obligations.PhaseAxisOnlyMovesForward : Prop :=
  ∀ s t : State, s.faultCode = 0#8 → healthy s → step s = .next t → t.faultCode = 0#8 →
    t.chimePhase = s.chimePhase ∨
    (s.chimePhase = .none ∧ t.chimePhase = .melody) ∨
    (s.chimePhase = .melody ∧ t.chimePhase = .pauseBeforeStrikes) ∨
    (s.chimePhase = .pauseBeforeStrikes ∧ t.chimePhase = .strikes) ∨
    (s.chimePhase = .strikes ∧ t.chimePhase = .none)

/-- 42_sequencer.md R155, R161, 60_exceptions.md R223: with a melody whose notes can be started, no UPDATE of a healthy
block raises a fault. -/
def Obligations.UpdateOfAHealthyBlockNeverFaults : Prop :=
  ∀ s : State, running s → healthy s → playable s → ∃ t, exec .update s = .next t ∧ t.faultCode = 0#8

/-- 10_state.md R32-R37, R52: only UPDATE and START_CHIME write a sequencer field; no other command and no tick does. -/
def Obligations.SequencerFieldsHaveTwoWriters : Prop :=
  (∀ (i : Instr) (s t : State), exec i s = .next t → i ≠ .update → (∀ n, i ≠ .startChime n) →
    t.playbackState = s.playbackState ∧ t.chimePhase = s.chimePhase ∧ t.sequenceIndex = s.sequenceIndex ∧
    t.strikeIndex = s.strikeIndex ∧ t.strikeCount = s.strikeCount ∧ t.noteStartTimeMs = s.noteStartTimeMs ∧
    t.noteDurationMs = s.noteDurationMs) ∧
  (∀ s : State, position (tick s) = position s ∧ (tick s).strikeCount = s.strikeCount ∧
    (tick s).noteStartTimeMs = s.noteStartTimeMs ∧ (tick s).noteDurationMs = s.noteDurationMs)

/-- 42_sequencer.md R171: in a cycle started by START_CHIME `n`, whatever ticks fall between the polls, however late
each poll comes, and whether a note's time or the failsafe ends it (70_reset_and_hazards.md R261), the sequencer starts
the 16 melody notes in order, enters the pause once, starts exactly `n` strikes, and is then back at Idle and None,
without a fault. The polls `c` counts are those that find a move due; any other poll changes nothing (R170:
`UpdateWhileANotePlays`, `UpdateInAGap`). -/
def Obligations.ChimeCyclePlaysEveryNoteAndStrike : Prop :=
  ∀ (s : State) (n : Byte) (c : Nat → State), running s → s.playbackState = .idle → s.active = false →
    gapsInRange s.params → playable s → 1 ≤ n.toNat → n.toNat ≤ 12 →
    exec (.startChime n) s = .next (c 0) → (∀ k, k < 33 + 2 * n.toNat → CyclePoll (c k) (c (k + 1))) →
    (∀ j, j < 16 → ∃ ki, position (c (2 * j)) = (.playingNote, .melody, j + 1, ki) ∧
      position (c (2 * j + 1)) = (.gap, .melody, j + 1, ki) ∧
      (c (2 * j)).noteDurationMs.toNat = (entryDuration (s.melodyRom.get (Fin.ofNat 17 j))).toNat) ∧
    (∃ ki, position (c 32) = (.gap, .pauseBeforeStrikes, 16, ki)) ∧
    (∀ j, j < n.toNat → position (c (33 + 2 * j)) = (.playingNote, .strikes, 16, j + 1) ∧
      position (c (34 + 2 * j)) = (.gap, .strikes, 16, j + 1)) ∧
    position (c (33 + 2 * n.toNat)) = (.idle, .none, 16, n.toNat) ∧
    (c (33 + 2 * n.toNat)).faultCode = 0#8

/-- 42_sequencer.md R161-R165: in a running, healthy cycle with a playable melody, every poll that finds the next move due,
at whatever time and after whatever ticks, makes that move; and a time at which it is due lies ahead, no more than the
note's or gap's length from now. -/
def Obligations.ACycleCanAlwaysMoveOn : Prop :=
  ∀ s : State, running s → healthy s → playable s → gapsInRange s.params → s.playbackState ≠ .idle →
    (∀ k now, moveDue k now s →
      ∃ t, updateAfter k now s = .next t ∧ position t ≠ position s ∧ t.faultCode = 0#8 ∧ healthy t) ∧
    (∃ d, d ≤ dueMs s ∧ dueMs s ≤ elapsed (s.nowMs + BitVec.ofNat 64 d) s)

end Sequencer

section Control

/-- 44_control.md R190: BEGIN is legal once; it sets the pin and `begun`, writes the neutral level, and touches nothing
else; a second BEGIN raises ALREADY_BEGUN. -/
def Obligations.BeginStartsTheBlockOnce : Prop :=
  (∀ pin : Byte, encode (.begin pin) = 0x01#8 ++ 0#24 ++ pin) ∧
  ∀ (s : State) (pin : Byte), s.faultCode = 0#8 →
    (s.begun = false → exec (.begin pin) s = .next { s with
      outputPin := pin
      begun := true
      output := s.params.neutral
      outTrace := s.outTrace ++ [s.params.neutral] }) ∧
    (s.begun = true → exec (.begin pin) s = .next { s with faultCode := 0x04#8 })

/-- 10_state.md R45-R49, 44_control.md R194: READ_REG of an index 0x00 to 0x0F changes `resp` and nothing else, before
BEGIN and in a faulted block too, and `resp` holds the register of R45 with the bit layouts of R46 to R48 and the codes of
R38; a higher index raises BAD_REGISTER. -/
def Obligations.ReadRegReturnsTheRegister : Prop :=
  (∀ (s : State) (r : Byte), r.toNat ≤ 0x0F → ∃ v : Word, exec (.readReg r) s = .next { s with resp := v } ∧
    (r = 0x00#8 → v = s.phaseAccumulator) ∧ (r = 0x01#8 → v = s.phaseIncrement) ∧
    (r = 0x02#8 → s.amplitude.toNat ≤ 127 → v.toNat = s.amplitude.toNat) ∧
    (r = 0x03#8 → v.toNat = s.active.toNat + 2 * s.completedFlag.toNat) ∧
    (r = 0x04#8 → v = s.sampleCount) ∧ (r = 0x05#8 → v = s.sampleTarget) ∧
    (r = 0x06#8 → s.volume.toNat ≤ 100 → v.toNat = s.volume.toNat) ∧
    (r = 0x07#8 → v.toNat = s.output.toNat) ∧
    (r = 0x08#8 → v.toNat =
      (match s.playbackState with | .idle => 0 | .playingNote => 1 | .gap => 2) +
      16 * (match s.chimePhase with
        | .none => 0 | .melody => 1 | .pauseBeforeStrikes => 2 | .strikes => 3 | .complete => 4)) ∧
    (r = 0x09#8 → v = s.sequenceIndex) ∧ (r = 0x0A#8 → v = s.strikeIndex) ∧ (r = 0x0B#8 → v = s.strikeCount) ∧
    (r = 0x0C#8 → v.toNat = s.noteStartTimeMs.toNat % 2 ^ 32) ∧
    (r = 0x0D#8 → v.toNat = s.noteStartTimeMs.toNat / 2 ^ 32) ∧ (r = 0x0E#8 → v = s.noteDurationMs) ∧
    (r = 0x0F#8 → v.toNat = s.begun.toNat + 2 * (if s.playbackState = .idle then 0 else 1) +
      2 ^ 8 * s.faultCode.toNat + 2 ^ 16 * s.outputPin.toNat)) ∧
  (∀ (s : State) (r : Byte), 0x10 ≤ r.toNat → s.faultCode = 0#8 →
    exec (.readReg r) s = .next { s with faultCode := 0x0C#8 })

/-- 44_control.md R195: IS_PLAYING answers 1 exactly when `playbackState` is not Idle, in every state, and changes nothing
but `resp`. -/
def Obligations.IsPlayingAnswersTheSequencer : Prop :=
  encode .isPlaying = 0x08#8 ++ 0#32 ∧
  ∀ s : State, ∃ v : Word, exec .isPlaying s = .next { s with resp := v } ∧
    (v = 1#32 ↔ s.playbackState ≠ .idle) ∧ (v = 0#32 ↔ s.playbackState = .idle)

/-- 44_control.md R191, 30_encoding.md R84: before BEGIN, UPDATE, START_NOTE, STOP_NOTE and START_CHIME raise NOT_BEGUN
with every operand, and nothing else changes. -/
def Obligations.CommandsBeforeBeginFault : Prop :=
  ∀ (s : State) (i : Instr), s.faultCode = 0#8 → s.begun = false →
    (i = .update ∨ i = .stopNote ∨ (∃ f d, i = .startNote f d) ∨ (∃ n, i = .startChime n)) →
    exec i s = .next { s with faultCode := 0x03#8 }

/-- 30_encoding.md R84, 60_exceptions.md R224: a command has no step exactly in a faulted block, and there exactly if it
is neither IS_PLAYING nor READ_REG of an index 0x00 to 0x0F; no command stops for any other reason. -/
def Obligations.OnlyAFaultedBlockTurnsCommandsAway : Prop :=
  ∀ (s : State) (i : Instr),
    (exec i s = .fault .hostStuck ↔
      s.faultCode ≠ 0#8 ∧ i ≠ .isPlaying ∧ ¬∃ r : Byte, r.toNat ≤ 0x0F ∧ i = .readReg r) ∧
    (exec i s ≠ .fault .hostStuck → ∃ t, exec i s = .next t)

/-- 10_state.md R39, 44_control.md R191: nothing undoes BEGIN, and once begun no step changes the pin. -/
def Obligations.BeginIsNeverUndone : Prop :=
  ∀ s t : State, step s = .next t → s.begun = true → t.begun = true ∧ t.outputPin = s.outputPin

/-- 10_state.md R39: the pin has no effect. Every command but BEGIN, which sets it, and READ_REG, which shows it, does the
same whatever the pin. -/
def Obligations.OutputPinHasNoEffect : Prop :=
  ∀ (i : Instr) (s t : State) (pin : Byte), (∀ p, i ≠ .begin p) → (∀ r, i ≠ .readReg r) →
    exec i s = .next t → exec i { s with outputPin := pin } = .next { t with outputPin := pin }

end Control

section Faults

/-- 60_exceptions.md R224, 10_state.md R40: once a fault is recorded no step changes any field of the block but `resp` and
`nowMs`; the code stays the first one. The other fields named are the host's and the model's own. -/
def Obligations.AFaultFreezesTheBlock : Prop :=
  ∀ s t : State, step s = .next t → s.faultCode ≠ 0#8 →
    t = { s with
      resp := t.resp
      nowMs := t.nowMs
      lastChimedHour := t.lastChimedHour
      hostQueue := t.hostQueue
      schedule := t.schedule
      drawCount := t.drawCount
      runMs := t.runMs }

/-- 60_exceptions.md R221: `faultCode` is 0 or one of the twelve codes, from every such state after every step. -/
def Obligations.FaultCodeStaysNamed : Prop :=
  ∀ s t : State, s.faultCode.toNat ≤ 0x0C → step s = .next t → t.faultCode.toNat ≤ 0x0C

end Faults

section Machine

/-- 10_state.md R54 (item 6 as the rules keep it, log entry 18: `strikeIndex` is at most `strikeCount` but in Melody and
PauseBeforeStrikes): every step keeps the invariant. -/
def Obligations.EveryStepKeepsTheInvariant : Prop :=
  ∀ s t : State, Inv s → step s = .next t → Inv t

/-- 10_state.md R54, R53: the invariant holds after power-on, whatever VOLUME_RESET is. -/
def Obligations.PowerOnStateMeetsTheInvariant : Prop :=
  healthy State.reset

/-- 10_state.md R54 item 6 as written, with 42_sequencer.md R158: expected to FAIL. After a cycle with 12 strikes,
START_CHIME 3 leaves `strikeIndex` 12 above `strikeCount` 3, since R158 does not reset it (log entry 18). -/
def Obligations.StrikeIndexNeverExceedsStrikeCount : Prop :=
  ∀ s t : State, s.faultCode = 0#8 → healthy s → strikesWithinCount s → step s = .next t → t.faultCode = 0#8 →
    strikesWithinCount t

/-- 20_memory.md R60, R53: no step of any agent writes either ROM, or a configuration parameter (R5). -/
def Obligations.RomsAndParametersAreNeverWritten : Prop :=
  ∀ s t : State, step s = .next t →
    t.waveRom = s.waveRom ∧ t.melodyRom = s.melodyRom ∧ t.params = s.params

/-- 40_oscillator.md R100, 42_sequencer.md R150-R152, 48_host_trigger.md R201: the ROMs and the parameters of the power-on
state meet their constraints, whatever the open values are (log entries 5 and 7). -/
def Obligations.PowerOnConfigurationIsLegal : Prop :=
  Memory.wf State.reset ∧ State.reset.params.legal

/-- 20_memory.md R64, 10_state.md R28, R43: every step only adds to `outTrace`, at its end, and keeps `OUTPUT` equal to its
newest entry. -/
def Obligations.OutputIsAlwaysTheNewestWrite : Prop :=
  ∀ s t : State, step s = .next t →
    (∃ new, t.outTrace = s.outTrace ++ new) ∧ (outputIsNewest s → outputIsNewest t) ∧
    (t.outTrace = s.outTrace → t.output = s.output)

/-- 10_state.md R53, 70_reset_and_hazards.md R250: every field at its power-on value; `volume` is the open VOLUME_RESET, in 0 to
100; `OUTPUT` and `nowMs` are draws, free values; the ROMs hold the configuration's contents. Beside the block, the trigger
has chimed no hour (48_host_trigger.md R201, R250), and the parameters that have a default hold it (00_scope.md R5). -/
def Obligations.PowerOnLeavesTheStatedValues : Prop :=
  State.reset.phaseAccumulator = 0#32 ∧ State.reset.phaseIncrement = 0#32 ∧ State.reset.amplitude = 0#8 ∧
  State.reset.active = false ∧ State.reset.volume.toNat ≤ 100 ∧ State.reset.sampleCount = 0#32 ∧
  State.reset.sampleTarget = 0#32 ∧ State.reset.completedFlag = false ∧ State.reset.playbackState = .idle ∧
  State.reset.chimePhase = .none ∧ State.reset.sequenceIndex = 0#32 ∧ State.reset.strikeIndex = 0#32 ∧
  State.reset.strikeCount = 0#32 ∧ State.reset.noteStartTimeMs = 0#64 ∧ State.reset.noteDurationMs = 0#32 ∧
  State.reset.begun = false ∧ State.reset.outputPin = 0#8 ∧ State.reset.faultCode = 0#8 ∧ State.reset.resp = 0#32 ∧
  State.reset.outTrace = [] ∧ State.reset.output = Config.outputDraw ∧ State.reset.nowMs = Config.now0 ∧
  State.reset.volume = BitVec.ofNat 8 Config.volumeReset.val ∧ State.reset.waveRom = Config.waveTable ∧
  State.reset.melodyRom = Config.melodyRom ∧ State.reset.lastChimedHour = none ∧
  State.reset.params.sampleRate = 44000 ∧ State.reset.params.neutral = 128#8 ∧ State.reset.params.outMin = 0#8 ∧
  State.reset.params.outMax = 255#8 ∧ State.reset.params.scaleDiv = .trunc ∧ State.reset.params.gapNote = 80 ∧
  State.reset.params.gapPause = 1500 ∧ State.reset.params.gapStrike = 1000

end Machine

section Trigger

/-- 48_host_trigger.md R204: the strikes of an hour are 1 to 12 and equal the hour mod 12; so START_CHIME from the trigger
is never out of range. -/
def Obligations.StrikesFollowTheTwelveHourClock : Prop :=
  ∀ h : Nat, 1 ≤ strikesFor h ∧ strikesFor h ≤ 12 ∧ strikesFor h % 12 = h % 12 ∧
    strikesInRange (BitVec.ofNat 8 (strikesFor h)) = true

/-- 48_host_trigger.md R203: a call whose conditions hold, on a running block at rest with a legal first note, gives the
block IS_PLAYING and then START_CHIME with the hour's strikes, in four turns of HOST, and records the hour. -/
def Obligations.ADueChimeReachesStartChime : Prop :=
  ∀ (s : State) (h sec : Nat) (inc tgt : Word) (turns : List Agent) (queue : List HostAction),
    running s → s.playbackState = .idle → s.active = false → h ≤ 23 → sec ≤ 59 → sec < s.params.chimeWindowS →
    s.lastChimedHour ≠ some h → inQuiet s.params h = false → entryParams s (s.melodyRom.get 0) inc tgt →
    s.hostQueue = .maybeChime h 0 sec :: queue → s.schedule = [.host, .host, .host, .host] ++ turns →
    core.run 4 s = .next (notePlaying s.nowMs (s.melodyRom.get 0) inc tgt { s with
      chimePhase := .melody
      sequenceIndex := 1#32
      strikeCount := BitVec.ofNat 32 (strikesFor h)
      resp := 0#32
      lastChimedHour := some h
      hostQueue := queue
      schedule := turns })

/-- 48_host_trigger.md R202, R203: a call that is too late in the hour, in the hour already chimed, or in quiet hours
(which may wrap midnight) gives the block no command and records nothing. -/
def Obligations.ACallThatIsNotDueDoesNothing : Prop :=
  ∀ (s : State) (h m sec : Nat) (turns : List Agent) (queue : List HostAction),
    s.schedule = .host :: turns → s.hostQueue = .maybeChime h m sec :: queue → h ≤ 23 → m ≤ 59 → sec ≤ 59 →
    (m ≠ 0 ∨ s.params.chimeWindowS ≤ sec ∨ s.lastChimedHour = some h ∨
      (s.params.quietStart ≤ h ∧ h < s.params.quietEnd) ∨
      (s.params.quietEnd < s.params.quietStart ∧ (s.params.quietStart ≤ h ∨ h < s.params.quietEnd))) →
    step s = .next { s with schedule := turns, hostQueue := queue }

/-- 48_host_trigger.md R201, R203: only a fire changes `lastChimedHour`, and it sets the hour it fires for and gives the
block START_CHIME; the second half of a call that IS_PLAYING answered with 1 gives the block nothing and records nothing
(95_test_vectors.md V8.3). That a call's second half is a turn of its own, `chimeIfIdle`, which reads the answer in `resp`,
is the model's choice (log entry 10). -/
def Obligations.OnlyAFireRecordsItsHour : Prop :=
  (∀ s t : State, step s = .next t → t.lastChimedHour ≠ s.lastChimedHour →
    ∃ h queue, s.hostQueue = .chimeIfIdle h :: queue ∧ s.resp ≠ 1#32 ∧ t.lastChimedHour = some h ∧
      t.hostQueue = .word (encode (.startChime (BitVec.ofNat 8 (strikesFor h)))) :: queue) ∧
  (∀ (s : State) (h : Nat) (turns : List Agent) (queue : List HostAction),
    s.schedule = .host :: turns → s.hostQueue = .chimeIfIdle h :: queue → s.resp = 1#32 →
    step s = .next { s with schedule := turns, hostQueue := queue })

/-- 48_host_trigger.md R200, S16: a wall clock out of range is refused. -/
def Obligations.WallClockOutOfRangeIsRefused : Prop :=
  ∀ (s : State) (h m sec : Nat) (turns : List Agent) (queue : List HostAction),
    s.schedule = .host :: turns → s.hostQueue = .maybeChime h m sec :: queue →
    ¬(h ≤ 23 ∧ m ≤ 59 ∧ sec ≤ 59) → step s = .refused .wallClockOutOfRange

/-- 48_host_trigger.md R203: the host's queue holds second halves of calls only right behind the IS_PLAYING their first half
gave, for an hour that is not the recorded one; this holds after power-on, and every step keeps it (log entry 10). -/
def Obligations.TriggerQueueStaysOrderly : Prop :=
  triggerOrderly State.reset ∧ ∀ s t : State, triggerOrderly s → step s = .next t → triggerOrderly t

/-- 48_host_trigger.md R205: between two fires for one hour there is a fire for another hour, whatever the calls, the
agents and the block do in between (a fire is a turn of the model's own, log entry 10). -/
def Obligations.TwoFiresOfAnHourHaveAnotherBetween : Prop :=
  ∀ (run : Nat → State) (h i j : Nat), triggerOrderly (run 0) → (∀ n, n < j → step (run n) = .next (run (n + 1))) →
    i < j → fires h (run i) → fires h (run j) →
    ∃ k other, i < k ∧ k < j ∧ other ≠ h ∧ fires other (run k)

end Trigger

section Runs

/-- 10_state.md R35, R54 item 6, with 42_sequencer.md R158: `strikeIndex` passes `strikeCount` in one way only, a
START_CHIME with a count below the strikes of the last cycle; then the melody plays with the old index (log entry 18). -/
def Obligations.OnlyASmallerStartChimeLeavesTheStrikeRange : Prop :=
  ∀ s t : State, s.faultCode = 0#8 → healthy s → strikesWithinCount s → step s = .next t → t.faultCode = 0#8 →
    strikesWithinCount t ∨
    (s.playbackState = .idle ∧ t.chimePhase = .melody ∧ t.strikeIndex = s.strikeIndex ∧
      t.strikeCount.toNat < s.strikeIndex.toNat ∧
      ∃ n queue, s.hostQueue = .word (encode (.startChime n)) :: queue ∧ t.strikeCount.toNat = n.toNat)

/-- 70_reset_and_hazards.md R263: a run's observation is that of its first ended state: what `observeRun` answers is what
some number of steps shows, the state they lead to is ended, and no earlier one is. More fuel gives the same answer. -/
def Obligations.ARunEndsAtItsFirstEndedState : Prop :=
  ∀ (s t : State) (responses : List Word) (fuel : Nat),
    (observeRun fuel s = some (t, responses) ↔
      ∃ k, k ≤ fuel ∧ observe k s = some (t, responses) ∧ ended t ∧
        ∀ j, j < k → ∀ u earlier, observe j s = some (u, earlier) → ¬ended u) ∧
    (observeRun fuel s = some (t, responses) →
      ∀ more u later, observeRun more s = some (u, later) → u = t ∧ later = responses)

/-- 70_reset_and_hazards.md R262, 42_sequencer.md R171: in a fair run without a fault every cycle returns to Idle and None.
R262 bounds no delay of a poll, so a poll might come after the 2^64 ms that S15 allows a run; the statement asks for polls
at most `D` ms apart, whatever `D` is, and for a run with the time left (log entry 21); no cycle has as many as 64 moves. -/
def Obligations.EveryCycleReturnsUnderFairness : Prop :=
  ∀ (state : Nat → State) (who : Nat → Agent) (queue : Nat → List HostAction) (G D n : Nat),
    IsRun state who queue → FairRun state who queue → PollsWithin D state who queue → (∀ m, running (state m)) →
    healthy (state n) → stampedInRun (state n) → gapsInRange (state n).params → gapsAtMost G (state n).params →
    (state n).runMs + 64 * (2 ^ 32 + G + D) < 2 ^ 64 →
    ∃ m, n ≤ m ∧ (state m).playbackState = .idle ∧ (state m).chimePhase = .none ∧
      (state m).runMs ≤ (state n).runMs + 64 * (2 ^ 32 + G + D)

/-- 10_state.md R35, 42_sequencer.md R155, R156: the strikes started in the current cycle are never more than its count. A
step keeps their number, or starts one strike more, or begins a cycle with none (log entry 18 says why this is not the
field `strikeIndex` throughout). -/
def Obligations.StrikesStartedStayWithinTheCount : Prop :=
  ∀ s t : State, s.faultCode = 0#8 → healthy s → step s = .next t → t.faultCode = 0#8 →
    strikesStarted t ≤ t.strikeCount.toNat ∧ t.strikeCount.toNat ≤ 12 ∧
    (strikesStarted t = strikesStarted s ∨
      (strikesStarted t = strikesStarted s + 1 ∧ t.chimePhase = .strikes ∧ t.playbackState = .playingNote) ∨
      (strikesStarted t = 0 ∧ s.chimePhase = .none ∧ t.chimePhase = .melody))

end Runs
end

