-- ==== Sys2Proof/Laws/PerInstr.lean ====
section
/-! SUPPORT. A statement about every instruction, one lemma per constructor: its encoding is a legal word
(30_encoding.md R81-R87). -/

namespace Sys2Proof.Laws

theorem encodeZ_toNat (op : Byte) : (encodeZ op).toNat = op.toNat * 2 ^ 32 := by
  rw [encodeZ, BitVec.toNat_append, ← Nat.shiftLeft_add_eq_or_of_lt (0#32).isLt, Nat.shiftLeft_eq]
  simp only [BitVec.toNat_ofNat]
  omega

theorem encodeB_toNat (op imm : Byte) : (encodeB op imm).toNat = op.toNat * 2 ^ 32 + imm.toNat := by
  rw [encodeB, BitVec.toNat_append, ← Nat.shiftLeft_add_eq_or_of_lt imm.isLt, BitVec.toNat_append,
    ← Nat.shiftLeft_add_eq_or_of_lt (0#24).isLt, Nat.shiftLeft_eq, Nat.shiftLeft_eq]
  simp only [BitVec.toNat_ofNat]
  omega

theorem encodeN_toNat (op : Byte) (f d : Half) :
    (encodeN op f d).toNat = op.toNat * 2 ^ 32 + f.toNat * 2 ^ 16 + d.toNat := by
  rw [encodeN, BitVec.toNat_append, ← Nat.shiftLeft_add_eq_or_of_lt d.isLt, BitVec.toNat_append,
    ← Nat.shiftLeft_add_eq_or_of_lt f.isLt, Nat.shiftLeft_eq, Nat.shiftLeft_eq]
  omega

theorem encodeZ_legal (op : Byte) (h : op.toNat = 4 ∨ op.toNat = 5 ∨ op.toNat = 8) :
    wordWellFormed (encodeZ op) = true := by
  have hr : (encodeZ op).toNat % 4294967296 = 0 := by rw [encodeZ_toNat]; omega
  have hq : (encodeZ op).toNat / 4294967296 = op.toNat := by rw [encodeZ_toNat]; omega
  rcases h with h | h | h <;>
    simp [wordWellFormed, opcodeLegal, zeroPayloadLegal, bytePayloadLegal, hq, hr, h]

theorem encodeB_legal (op imm : Byte) (h : op.toNat = 1 ∨ op.toNat = 2 ∨ op.toNat = 6 ∨ op.toNat = 7) :
    wordWellFormed (encodeB op imm) = true := by
  have hi : imm.toNat < 256 := imm.isLt
  have hq : (encodeB op imm).toNat / 4294967296 = op.toNat := by rw [encodeB_toNat]; omega
  have hr : (encodeB op imm).toNat % 4294967296 < 256 := by rw [encodeB_toNat]; omega
  rcases h with h | h | h | h <;>
    simp [wordWellFormed, opcodeLegal, zeroPayloadLegal, bytePayloadLegal, hq, hr, h]

theorem encodeN_legal (f d : Half) : wordWellFormed (encodeN 0x03#8 f d) = true := by
  have hf : f.toNat < 65536 := f.isLt
  have hd : d.toNat < 65536 := d.isLt
  have h3 : (0x03#8).toNat = 3 := rfl
  have hq : (encodeN 0x03#8 f d).toNat / 4294967296 = 3 := by rw [encodeN_toNat, h3]; omega
  simp [wordWellFormed, opcodeLegal, zeroPayloadLegal, bytePayloadLegal, hq]

/-! ### The family -/

namespace EncodingLegal

/-- The instruction's word is a legal encoding. -/
def Statement (i : Instr) : Prop := wordWellFormed (encode i) = true

theorem begin (pin : Byte) : Statement (.begin pin) := encodeB_legal _ _ (by decide)

theorem setVolume (percent : Byte) : Statement (.setVolume percent) := encodeB_legal _ _ (by decide)

theorem startNote (freq dur : Half) : Statement (.startNote freq dur) := encodeN_legal _ _

theorem stopNote : Statement .stopNote := encodeZ_legal _ (by decide)

theorem update : Statement .update := encodeZ_legal _ (by decide)

theorem startChime (strikes : Byte) : Statement (.startChime strikes) := encodeB_legal _ _ (by decide)

theorem readReg (index : Byte) : Statement (.readReg index) := encodeB_legal _ _ (by decide)

theorem isPlaying : Statement .isPlaying := encodeZ_legal _ (by decide)

end EncodingLegal

end Sys2Proof.Laws
end

