-- ==== Sys2Proof/Laws/Decode.lean ====
section
/-! SUPPORT. The fields of a command word as arithmetic, the fields of an encoded word, and when each format decodes
(30_encoding.md R80-R86). -/

namespace Sys2Proof.Laws

/-- Concatenation as arithmetic. -/
theorem append_toNat {a b : Nat} (x : BitVec a) (y : BitVec b) : (x ++ y).toNat = x.toNat * 2 ^ b + y.toNat := by
  rw [BitVec.toNat_append, ← Nat.shiftLeft_add_eq_or_of_lt y.isLt, Nat.shiftLeft_eq]

theorem opcodeOf_toNat (w : CommandWord) : (opcodeOf w).toNat = w.toNat / 2 ^ 32 := by
  have h : w.toNat < 2 ^ 40 := w.isLt
  simp only [opcodeOf, BitVec.extractLsb'_toNat, Nat.shiftRight_eq_div_pow]
  omega

theorem payloadOf_toNat (w : CommandWord) : (payloadOf w).toNat = w.toNat % 2 ^ 32 := by
  simp only [payloadOf, BitVec.extractLsb'_toNat, Nat.shiftRight_eq_div_pow]
  omega

theorem reservedOf_toNat (w : CommandWord) : (reservedOf w).toNat = w.toNat % 2 ^ 32 / 2 ^ 8 := by
  simp only [reservedOf, BitVec.extractLsb'_toNat, Nat.shiftRight_eq_div_pow]
  omega

theorem imm8Of_toNat (w : CommandWord) : (imm8Of w).toNat = w.toNat % 2 ^ 8 := by
  simp only [imm8Of, BitVec.extractLsb'_toNat, Nat.shiftRight_eq_div_pow]
  omega

theorem freqOf_toNat (w : CommandWord) : (freqOf w).toNat = w.toNat / 2 ^ 16 % 2 ^ 16 := by
  simp only [freqOf, BitVec.extractLsb'_toNat, Nat.shiftRight_eq_div_pow]

theorem durOf_toNat (w : CommandWord) : (durOf w).toNat = w.toNat % 2 ^ 16 := by
  simp only [durOf, BitVec.extractLsb'_toNat, Nat.shiftRight_eq_div_pow]
  omega

theorem payloadOf_eq_zero (w : CommandWord) : payloadOf w = 0#32 ↔ w.toNat % 2 ^ 32 = 0 := by
  rw [← BitVec.toNat_inj, payloadOf_toNat]; rfl

theorem reservedOf_eq_zero (w : CommandWord) : reservedOf w = 0#24 ↔ w.toNat % 2 ^ 32 / 2 ^ 8 = 0 := by
  rw [← BitVec.toNat_inj, reservedOf_toNat]; rfl

/-! ### The fields of an encoded word -/

theorem encodeZ_fields (op : Byte) : opcodeOf (encodeZ op) = op ∧ payloadOf (encodeZ op) = 0#32 := by
  refine ⟨BitVec.eq_of_toNat_eq ?_, (payloadOf_eq_zero _).2 ?_⟩
  · rw [opcodeOf_toNat, encodeZ_toNat]; omega
  · rw [encodeZ_toNat]; omega

theorem encodeB_fields (op imm : Byte) :
    opcodeOf (encodeB op imm) = op ∧ reservedOf (encodeB op imm) = 0#24 ∧ imm8Of (encodeB op imm) = imm := by
  have h : imm.toNat < 2 ^ 8 := imm.isLt
  refine ⟨BitVec.eq_of_toNat_eq ?_, (reservedOf_eq_zero _).2 ?_, BitVec.eq_of_toNat_eq ?_⟩
  · rw [opcodeOf_toNat, encodeB_toNat]; omega
  · rw [encodeB_toNat]; omega
  · rw [imm8Of_toNat, encodeB_toNat]; omega

theorem encodeN_fields (op : Byte) (f d : Half) :
    opcodeOf (encodeN op f d) = op ∧ freqOf (encodeN op f d) = f ∧ durOf (encodeN op f d) = d := by
  have hf : f.toNat < 2 ^ 16 := f.isLt
  have hd : d.toNat < 2 ^ 16 := d.isLt
  refine ⟨BitVec.eq_of_toNat_eq ?_, BitVec.eq_of_toNat_eq ?_, BitVec.eq_of_toNat_eq ?_⟩
  · rw [opcodeOf_toNat, encodeN_toNat]; omega
  · rw [freqOf_toNat, encodeN_toNat]; omega
  · rw [durOf_toNat, encodeN_toNat]; omega

/-! ### When a format decodes -/

theorem decodeZ_eq_ok {w : CommandWord} {i j : Instr} :
    decodeZ w i = .ok j ↔ w.toNat % 2 ^ 32 = 0 ∧ j = i := by
  rw [← payloadOf_eq_zero, decodeZ]
  split
  · rename_i h
    exact ⟨fun e => ⟨h, (Except.ok.inj e).symm⟩, fun e => by rw [e.2]⟩
  · rename_i h
    exact ⟨fun e => (nomatch e), fun e => absurd e.1 h⟩

theorem decodeB_eq_ok {w : CommandWord} {i : Byte → Instr} {j : Instr} :
    decodeB w i = .ok j ↔ w.toNat % 2 ^ 32 / 2 ^ 8 = 0 ∧ j = i (imm8Of w) := by
  rw [← reservedOf_eq_zero, decodeB]
  split
  · rename_i h
    exact ⟨fun e => ⟨h, (Except.ok.inj e).symm⟩, fun e => by rw [e.2]⟩
  · rename_i h
    exact ⟨fun e => (nomatch e), fun e => absurd e.1 h⟩

theorem decodeN_eq_ok {w : CommandWord} {i : Half → Half → Instr} {j : Instr} :
    decodeN w i = .ok j ↔ j = i (freqOf w) (durOf w) := by
  simp [decodeN, eq_comm]

end Sys2Proof.Laws
end

