-- ==== Sys2Proof/Laws/State.lean ====
section
/-! SUPPORT. What each named update of the state leaves in each field: one lemma per field per update, true by rfl. -/

namespace Sys2Proof.Machine

/-! ### `outWrite`: the sink write of 20_memory.md R64 -/

@[simp] theorem outWrite_phaseAccumulator (v : Byte) (s : State) : (outWrite v s).phaseAccumulator = s.phaseAccumulator := rfl
@[simp] theorem outWrite_phaseIncrement (v : Byte) (s : State) : (outWrite v s).phaseIncrement = s.phaseIncrement := rfl
@[simp] theorem outWrite_amplitude (v : Byte) (s : State) : (outWrite v s).amplitude = s.amplitude := rfl
@[simp] theorem outWrite_active (v : Byte) (s : State) : (outWrite v s).active = s.active := rfl
@[simp] theorem outWrite_volume (v : Byte) (s : State) : (outWrite v s).volume = s.volume := rfl
@[simp] theorem outWrite_output (v : Byte) (s : State) : (outWrite v s).output = v := rfl
@[simp] theorem outWrite_sampleCount (v : Byte) (s : State) : (outWrite v s).sampleCount = s.sampleCount := rfl
@[simp] theorem outWrite_sampleTarget (v : Byte) (s : State) : (outWrite v s).sampleTarget = s.sampleTarget := rfl
@[simp] theorem outWrite_completedFlag (v : Byte) (s : State) : (outWrite v s).completedFlag = s.completedFlag := rfl
@[simp] theorem outWrite_playbackState (v : Byte) (s : State) : (outWrite v s).playbackState = s.playbackState := rfl
@[simp] theorem outWrite_chimePhase (v : Byte) (s : State) : (outWrite v s).chimePhase = s.chimePhase := rfl
@[simp] theorem outWrite_sequenceIndex (v : Byte) (s : State) : (outWrite v s).sequenceIndex = s.sequenceIndex := rfl
@[simp] theorem outWrite_strikeIndex (v : Byte) (s : State) : (outWrite v s).strikeIndex = s.strikeIndex := rfl
@[simp] theorem outWrite_strikeCount (v : Byte) (s : State) : (outWrite v s).strikeCount = s.strikeCount := rfl
@[simp] theorem outWrite_noteStartTimeMs (v : Byte) (s : State) : (outWrite v s).noteStartTimeMs = s.noteStartTimeMs := rfl
@[simp] theorem outWrite_noteDurationMs (v : Byte) (s : State) : (outWrite v s).noteDurationMs = s.noteDurationMs := rfl
@[simp] theorem outWrite_begun (v : Byte) (s : State) : (outWrite v s).begun = s.begun := rfl
@[simp] theorem outWrite_outputPin (v : Byte) (s : State) : (outWrite v s).outputPin = s.outputPin := rfl
@[simp] theorem outWrite_faultCode (v : Byte) (s : State) : (outWrite v s).faultCode = s.faultCode := rfl
@[simp] theorem outWrite_nowMs (v : Byte) (s : State) : (outWrite v s).nowMs = s.nowMs := rfl
@[simp] theorem outWrite_resp (v : Byte) (s : State) : (outWrite v s).resp = s.resp := rfl
@[simp] theorem outWrite_outTrace (v : Byte) (s : State) : (outWrite v s).outTrace = s.outTrace ++ [v] := rfl
@[simp] theorem outWrite_waveRom (v : Byte) (s : State) : (outWrite v s).waveRom = s.waveRom := rfl
@[simp] theorem outWrite_melodyRom (v : Byte) (s : State) : (outWrite v s).melodyRom = s.melodyRom := rfl
@[simp] theorem outWrite_params (v : Byte) (s : State) : (outWrite v s).params = s.params := rfl
@[simp] theorem outWrite_lastChimedHour (v : Byte) (s : State) : (outWrite v s).lastChimedHour = s.lastChimedHour := rfl
@[simp] theorem outWrite_hostQueue (v : Byte) (s : State) : (outWrite v s).hostQueue = s.hostQueue := rfl
@[simp] theorem outWrite_schedule (v : Byte) (s : State) : (outWrite v s).schedule = s.schedule := rfl
@[simp] theorem outWrite_drawCount (v : Byte) (s : State) : (outWrite v s).drawCount = s.drawCount := rfl
@[simp] theorem outWrite_runMs (v : Byte) (s : State) : (outWrite v s).runMs = s.runMs := rfl

/-! ### `raiseFault`: taking a fault, 60_exceptions.md R224 -/

@[simp] theorem raiseFault_phaseAccumulator (c : FaultCode) (s : State) : (raiseFault c s).phaseAccumulator = s.phaseAccumulator := rfl
@[simp] theorem raiseFault_phaseIncrement (c : FaultCode) (s : State) : (raiseFault c s).phaseIncrement = s.phaseIncrement := rfl
@[simp] theorem raiseFault_amplitude (c : FaultCode) (s : State) : (raiseFault c s).amplitude = s.amplitude := rfl
@[simp] theorem raiseFault_active (c : FaultCode) (s : State) : (raiseFault c s).active = s.active := rfl
@[simp] theorem raiseFault_volume (c : FaultCode) (s : State) : (raiseFault c s).volume = s.volume := rfl
@[simp] theorem raiseFault_output (c : FaultCode) (s : State) : (raiseFault c s).output = s.output := rfl
@[simp] theorem raiseFault_sampleCount (c : FaultCode) (s : State) : (raiseFault c s).sampleCount = s.sampleCount := rfl
@[simp] theorem raiseFault_sampleTarget (c : FaultCode) (s : State) : (raiseFault c s).sampleTarget = s.sampleTarget := rfl
@[simp] theorem raiseFault_completedFlag (c : FaultCode) (s : State) : (raiseFault c s).completedFlag = s.completedFlag := rfl
@[simp] theorem raiseFault_playbackState (c : FaultCode) (s : State) : (raiseFault c s).playbackState = s.playbackState := rfl
@[simp] theorem raiseFault_chimePhase (c : FaultCode) (s : State) : (raiseFault c s).chimePhase = s.chimePhase := rfl
@[simp] theorem raiseFault_sequenceIndex (c : FaultCode) (s : State) : (raiseFault c s).sequenceIndex = s.sequenceIndex := rfl
@[simp] theorem raiseFault_strikeIndex (c : FaultCode) (s : State) : (raiseFault c s).strikeIndex = s.strikeIndex := rfl
@[simp] theorem raiseFault_strikeCount (c : FaultCode) (s : State) : (raiseFault c s).strikeCount = s.strikeCount := rfl
@[simp] theorem raiseFault_noteStartTimeMs (c : FaultCode) (s : State) : (raiseFault c s).noteStartTimeMs = s.noteStartTimeMs := rfl
@[simp] theorem raiseFault_noteDurationMs (c : FaultCode) (s : State) : (raiseFault c s).noteDurationMs = s.noteDurationMs := rfl
@[simp] theorem raiseFault_begun (c : FaultCode) (s : State) : (raiseFault c s).begun = s.begun := rfl
@[simp] theorem raiseFault_outputPin (c : FaultCode) (s : State) : (raiseFault c s).outputPin = s.outputPin := rfl
@[simp] theorem raiseFault_faultCode (c : FaultCode) (s : State) : (raiseFault c s).faultCode = if s.faultCode = 0#8 then faultByte c else s.faultCode := rfl
@[simp] theorem raiseFault_nowMs (c : FaultCode) (s : State) : (raiseFault c s).nowMs = s.nowMs := rfl
@[simp] theorem raiseFault_resp (c : FaultCode) (s : State) : (raiseFault c s).resp = s.resp := rfl
@[simp] theorem raiseFault_outTrace (c : FaultCode) (s : State) : (raiseFault c s).outTrace = s.outTrace := rfl
@[simp] theorem raiseFault_waveRom (c : FaultCode) (s : State) : (raiseFault c s).waveRom = s.waveRom := rfl
@[simp] theorem raiseFault_melodyRom (c : FaultCode) (s : State) : (raiseFault c s).melodyRom = s.melodyRom := rfl
@[simp] theorem raiseFault_params (c : FaultCode) (s : State) : (raiseFault c s).params = s.params := rfl
@[simp] theorem raiseFault_lastChimedHour (c : FaultCode) (s : State) : (raiseFault c s).lastChimedHour = s.lastChimedHour := rfl
@[simp] theorem raiseFault_hostQueue (c : FaultCode) (s : State) : (raiseFault c s).hostQueue = s.hostQueue := rfl
@[simp] theorem raiseFault_schedule (c : FaultCode) (s : State) : (raiseFault c s).schedule = s.schedule := rfl
@[simp] theorem raiseFault_drawCount (c : FaultCode) (s : State) : (raiseFault c s).drawCount = s.drawCount := rfl
@[simp] theorem raiseFault_runMs (c : FaultCode) (s : State) : (raiseFault c s).runMs = s.runMs := rfl

/-! ### `soundNote`: the writes of startNote, 40_oscillator.md R105 -/

@[simp] theorem soundNote_phaseAccumulator (inc tgt : Word) (s : State) : (soundNote inc tgt s).phaseAccumulator = s.phaseAccumulator := rfl
@[simp] theorem soundNote_phaseIncrement (inc tgt : Word) (s : State) : (soundNote inc tgt s).phaseIncrement = inc := rfl
@[simp] theorem soundNote_amplitude (inc tgt : Word) (s : State) : (soundNote inc tgt s).amplitude = ampMap s.volume := rfl
@[simp] theorem soundNote_active (inc tgt : Word) (s : State) : (soundNote inc tgt s).active = true := rfl
@[simp] theorem soundNote_volume (inc tgt : Word) (s : State) : (soundNote inc tgt s).volume = s.volume := rfl
@[simp] theorem soundNote_output (inc tgt : Word) (s : State) : (soundNote inc tgt s).output = s.output := rfl
@[simp] theorem soundNote_sampleCount (inc tgt : Word) (s : State) : (soundNote inc tgt s).sampleCount = 0#32 := rfl
@[simp] theorem soundNote_sampleTarget (inc tgt : Word) (s : State) : (soundNote inc tgt s).sampleTarget = tgt := rfl
@[simp] theorem soundNote_completedFlag (inc tgt : Word) (s : State) : (soundNote inc tgt s).completedFlag = false := rfl
@[simp] theorem soundNote_playbackState (inc tgt : Word) (s : State) : (soundNote inc tgt s).playbackState = s.playbackState := rfl
@[simp] theorem soundNote_chimePhase (inc tgt : Word) (s : State) : (soundNote inc tgt s).chimePhase = s.chimePhase := rfl
@[simp] theorem soundNote_sequenceIndex (inc tgt : Word) (s : State) : (soundNote inc tgt s).sequenceIndex = s.sequenceIndex := rfl
@[simp] theorem soundNote_strikeIndex (inc tgt : Word) (s : State) : (soundNote inc tgt s).strikeIndex = s.strikeIndex := rfl
@[simp] theorem soundNote_strikeCount (inc tgt : Word) (s : State) : (soundNote inc tgt s).strikeCount = s.strikeCount := rfl
@[simp] theorem soundNote_noteStartTimeMs (inc tgt : Word) (s : State) : (soundNote inc tgt s).noteStartTimeMs = s.noteStartTimeMs := rfl
@[simp] theorem soundNote_noteDurationMs (inc tgt : Word) (s : State) : (soundNote inc tgt s).noteDurationMs = s.noteDurationMs := rfl
@[simp] theorem soundNote_begun (inc tgt : Word) (s : State) : (soundNote inc tgt s).begun = s.begun := rfl
@[simp] theorem soundNote_outputPin (inc tgt : Word) (s : State) : (soundNote inc tgt s).outputPin = s.outputPin := rfl
@[simp] theorem soundNote_faultCode (inc tgt : Word) (s : State) : (soundNote inc tgt s).faultCode = s.faultCode := rfl
@[simp] theorem soundNote_nowMs (inc tgt : Word) (s : State) : (soundNote inc tgt s).nowMs = s.nowMs := rfl
@[simp] theorem soundNote_resp (inc tgt : Word) (s : State) : (soundNote inc tgt s).resp = s.resp := rfl
@[simp] theorem soundNote_outTrace (inc tgt : Word) (s : State) : (soundNote inc tgt s).outTrace = s.outTrace := rfl
@[simp] theorem soundNote_waveRom (inc tgt : Word) (s : State) : (soundNote inc tgt s).waveRom = s.waveRom := rfl
@[simp] theorem soundNote_melodyRom (inc tgt : Word) (s : State) : (soundNote inc tgt s).melodyRom = s.melodyRom := rfl
@[simp] theorem soundNote_params (inc tgt : Word) (s : State) : (soundNote inc tgt s).params = s.params := rfl
@[simp] theorem soundNote_lastChimedHour (inc tgt : Word) (s : State) : (soundNote inc tgt s).lastChimedHour = s.lastChimedHour := rfl
@[simp] theorem soundNote_hostQueue (inc tgt : Word) (s : State) : (soundNote inc tgt s).hostQueue = s.hostQueue := rfl
@[simp] theorem soundNote_schedule (inc tgt : Word) (s : State) : (soundNote inc tgt s).schedule = s.schedule := rfl
@[simp] theorem soundNote_drawCount (inc tgt : Word) (s : State) : (soundNote inc tgt s).drawCount = s.drawCount := rfl
@[simp] theorem soundNote_runMs (inc tgt : Word) (s : State) : (soundNote inc tgt s).runMs = s.runMs := rfl

/-! ### `stopNote`: stopNote, 40_oscillator.md R107 -/

@[simp] theorem stopNote_phaseAccumulator (s : State) : (stopNote s).phaseAccumulator = 0#32 := rfl
@[simp] theorem stopNote_phaseIncrement (s : State) : (stopNote s).phaseIncrement = s.phaseIncrement := rfl
@[simp] theorem stopNote_amplitude (s : State) : (stopNote s).amplitude = s.amplitude := rfl
@[simp] theorem stopNote_active (s : State) : (stopNote s).active = false := rfl
@[simp] theorem stopNote_volume (s : State) : (stopNote s).volume = s.volume := rfl
@[simp] theorem stopNote_output (s : State) : (stopNote s).output = s.params.neutral := rfl
@[simp] theorem stopNote_sampleCount (s : State) : (stopNote s).sampleCount = s.sampleCount := rfl
@[simp] theorem stopNote_sampleTarget (s : State) : (stopNote s).sampleTarget = s.sampleTarget := rfl
@[simp] theorem stopNote_completedFlag (s : State) : (stopNote s).completedFlag = s.completedFlag := rfl
@[simp] theorem stopNote_playbackState (s : State) : (stopNote s).playbackState = s.playbackState := rfl
@[simp] theorem stopNote_chimePhase (s : State) : (stopNote s).chimePhase = s.chimePhase := rfl
@[simp] theorem stopNote_sequenceIndex (s : State) : (stopNote s).sequenceIndex = s.sequenceIndex := rfl
@[simp] theorem stopNote_strikeIndex (s : State) : (stopNote s).strikeIndex = s.strikeIndex := rfl
@[simp] theorem stopNote_strikeCount (s : State) : (stopNote s).strikeCount = s.strikeCount := rfl
@[simp] theorem stopNote_noteStartTimeMs (s : State) : (stopNote s).noteStartTimeMs = s.noteStartTimeMs := rfl
@[simp] theorem stopNote_noteDurationMs (s : State) : (stopNote s).noteDurationMs = s.noteDurationMs := rfl
@[simp] theorem stopNote_begun (s : State) : (stopNote s).begun = s.begun := rfl
@[simp] theorem stopNote_outputPin (s : State) : (stopNote s).outputPin = s.outputPin := rfl
@[simp] theorem stopNote_faultCode (s : State) : (stopNote s).faultCode = s.faultCode := rfl
@[simp] theorem stopNote_nowMs (s : State) : (stopNote s).nowMs = s.nowMs := rfl
@[simp] theorem stopNote_resp (s : State) : (stopNote s).resp = s.resp := rfl
@[simp] theorem stopNote_outTrace (s : State) : (stopNote s).outTrace = s.outTrace ++ [s.params.neutral] := rfl
@[simp] theorem stopNote_waveRom (s : State) : (stopNote s).waveRom = s.waveRom := rfl
@[simp] theorem stopNote_melodyRom (s : State) : (stopNote s).melodyRom = s.melodyRom := rfl
@[simp] theorem stopNote_params (s : State) : (stopNote s).params = s.params := rfl
@[simp] theorem stopNote_lastChimedHour (s : State) : (stopNote s).lastChimedHour = s.lastChimedHour := rfl
@[simp] theorem stopNote_hostQueue (s : State) : (stopNote s).hostQueue = s.hostQueue := rfl
@[simp] theorem stopNote_schedule (s : State) : (stopNote s).schedule = s.schedule := rfl
@[simp] theorem stopNote_drawCount (s : State) : (stopNote s).drawCount = s.drawCount := rfl
@[simp] theorem stopNote_runMs (s : State) : (stopNote s).runMs = s.runMs := rfl

/-! ### `countSample`: counting a tick, 41_sample_tick.md R132 -/

@[simp] theorem countSample_phaseAccumulator (s : State) : (countSample s).phaseAccumulator = s.phaseAccumulator := rfl
@[simp] theorem countSample_phaseIncrement (s : State) : (countSample s).phaseIncrement = s.phaseIncrement := rfl
@[simp] theorem countSample_amplitude (s : State) : (countSample s).amplitude = s.amplitude := rfl
@[simp] theorem countSample_active (s : State) : (countSample s).active = s.active := rfl
@[simp] theorem countSample_volume (s : State) : (countSample s).volume = s.volume := rfl
@[simp] theorem countSample_output (s : State) : (countSample s).output = s.output := rfl
@[simp] theorem countSample_sampleCount (s : State) : (countSample s).sampleCount = s.sampleCount + 1#32 := rfl
@[simp] theorem countSample_sampleTarget (s : State) : (countSample s).sampleTarget = s.sampleTarget := rfl
@[simp] theorem countSample_completedFlag (s : State) : (countSample s).completedFlag = s.completedFlag := rfl
@[simp] theorem countSample_playbackState (s : State) : (countSample s).playbackState = s.playbackState := rfl
@[simp] theorem countSample_chimePhase (s : State) : (countSample s).chimePhase = s.chimePhase := rfl
@[simp] theorem countSample_sequenceIndex (s : State) : (countSample s).sequenceIndex = s.sequenceIndex := rfl
@[simp] theorem countSample_strikeIndex (s : State) : (countSample s).strikeIndex = s.strikeIndex := rfl
@[simp] theorem countSample_strikeCount (s : State) : (countSample s).strikeCount = s.strikeCount := rfl
@[simp] theorem countSample_noteStartTimeMs (s : State) : (countSample s).noteStartTimeMs = s.noteStartTimeMs := rfl
@[simp] theorem countSample_noteDurationMs (s : State) : (countSample s).noteDurationMs = s.noteDurationMs := rfl
@[simp] theorem countSample_begun (s : State) : (countSample s).begun = s.begun := rfl
@[simp] theorem countSample_outputPin (s : State) : (countSample s).outputPin = s.outputPin := rfl
@[simp] theorem countSample_faultCode (s : State) : (countSample s).faultCode = s.faultCode := rfl
@[simp] theorem countSample_nowMs (s : State) : (countSample s).nowMs = s.nowMs := rfl
@[simp] theorem countSample_resp (s : State) : (countSample s).resp = s.resp := rfl
@[simp] theorem countSample_outTrace (s : State) : (countSample s).outTrace = s.outTrace := rfl
@[simp] theorem countSample_waveRom (s : State) : (countSample s).waveRom = s.waveRom := rfl
@[simp] theorem countSample_melodyRom (s : State) : (countSample s).melodyRom = s.melodyRom := rfl
@[simp] theorem countSample_params (s : State) : (countSample s).params = s.params := rfl
@[simp] theorem countSample_lastChimedHour (s : State) : (countSample s).lastChimedHour = s.lastChimedHour := rfl
@[simp] theorem countSample_hostQueue (s : State) : (countSample s).hostQueue = s.hostQueue := rfl
@[simp] theorem countSample_schedule (s : State) : (countSample s).schedule = s.schedule := rfl
@[simp] theorem countSample_drawCount (s : State) : (countSample s).drawCount = s.drawCount := rfl
@[simp] theorem countSample_runMs (s : State) : (countSample s).runMs = s.runMs := rfl

/-! ### `failsafeStop`: the failsafe stop, 41_sample_tick.md R132 -/

@[simp] theorem failsafeStop_phaseAccumulator (s : State) : (failsafeStop s).phaseAccumulator = s.phaseAccumulator := rfl
@[simp] theorem failsafeStop_phaseIncrement (s : State) : (failsafeStop s).phaseIncrement = s.phaseIncrement := rfl
@[simp] theorem failsafeStop_amplitude (s : State) : (failsafeStop s).amplitude = s.amplitude := rfl
@[simp] theorem failsafeStop_active (s : State) : (failsafeStop s).active = false := rfl
@[simp] theorem failsafeStop_volume (s : State) : (failsafeStop s).volume = s.volume := rfl
@[simp] theorem failsafeStop_output (s : State) : (failsafeStop s).output = s.params.neutral := rfl
@[simp] theorem failsafeStop_sampleCount (s : State) : (failsafeStop s).sampleCount = s.sampleCount := rfl
@[simp] theorem failsafeStop_sampleTarget (s : State) : (failsafeStop s).sampleTarget = s.sampleTarget := rfl
@[simp] theorem failsafeStop_completedFlag (s : State) : (failsafeStop s).completedFlag = true := rfl
@[simp] theorem failsafeStop_playbackState (s : State) : (failsafeStop s).playbackState = s.playbackState := rfl
@[simp] theorem failsafeStop_chimePhase (s : State) : (failsafeStop s).chimePhase = s.chimePhase := rfl
@[simp] theorem failsafeStop_sequenceIndex (s : State) : (failsafeStop s).sequenceIndex = s.sequenceIndex := rfl
@[simp] theorem failsafeStop_strikeIndex (s : State) : (failsafeStop s).strikeIndex = s.strikeIndex := rfl
@[simp] theorem failsafeStop_strikeCount (s : State) : (failsafeStop s).strikeCount = s.strikeCount := rfl
@[simp] theorem failsafeStop_noteStartTimeMs (s : State) : (failsafeStop s).noteStartTimeMs = s.noteStartTimeMs := rfl
@[simp] theorem failsafeStop_noteDurationMs (s : State) : (failsafeStop s).noteDurationMs = s.noteDurationMs := rfl
@[simp] theorem failsafeStop_begun (s : State) : (failsafeStop s).begun = s.begun := rfl
@[simp] theorem failsafeStop_outputPin (s : State) : (failsafeStop s).outputPin = s.outputPin := rfl
@[simp] theorem failsafeStop_faultCode (s : State) : (failsafeStop s).faultCode = s.faultCode := rfl
@[simp] theorem failsafeStop_nowMs (s : State) : (failsafeStop s).nowMs = s.nowMs := rfl
@[simp] theorem failsafeStop_resp (s : State) : (failsafeStop s).resp = s.resp := rfl
@[simp] theorem failsafeStop_outTrace (s : State) : (failsafeStop s).outTrace = s.outTrace ++ [s.params.neutral] := rfl
@[simp] theorem failsafeStop_waveRom (s : State) : (failsafeStop s).waveRom = s.waveRom := rfl
@[simp] theorem failsafeStop_melodyRom (s : State) : (failsafeStop s).melodyRom = s.melodyRom := rfl
@[simp] theorem failsafeStop_params (s : State) : (failsafeStop s).params = s.params := rfl
@[simp] theorem failsafeStop_lastChimedHour (s : State) : (failsafeStop s).lastChimedHour = s.lastChimedHour := rfl
@[simp] theorem failsafeStop_hostQueue (s : State) : (failsafeStop s).hostQueue = s.hostQueue := rfl
@[simp] theorem failsafeStop_schedule (s : State) : (failsafeStop s).schedule = s.schedule := rfl
@[simp] theorem failsafeStop_drawCount (s : State) : (failsafeStop s).drawCount = s.drawCount := rfl
@[simp] theorem failsafeStop_runMs (s : State) : (failsafeStop s).runMs = s.runMs := rfl

/-! ### `advancePhase`: the phase add, 41_sample_tick.md R133 -/

@[simp] theorem advancePhase_phaseAccumulator (s : State) : (advancePhase s).phaseAccumulator = s.phaseAccumulator + s.phaseIncrement := rfl
@[simp] theorem advancePhase_phaseIncrement (s : State) : (advancePhase s).phaseIncrement = s.phaseIncrement := rfl
@[simp] theorem advancePhase_amplitude (s : State) : (advancePhase s).amplitude = s.amplitude := rfl
@[simp] theorem advancePhase_active (s : State) : (advancePhase s).active = s.active := rfl
@[simp] theorem advancePhase_volume (s : State) : (advancePhase s).volume = s.volume := rfl
@[simp] theorem advancePhase_output (s : State) : (advancePhase s).output = s.output := rfl
@[simp] theorem advancePhase_sampleCount (s : State) : (advancePhase s).sampleCount = s.sampleCount := rfl
@[simp] theorem advancePhase_sampleTarget (s : State) : (advancePhase s).sampleTarget = s.sampleTarget := rfl
@[simp] theorem advancePhase_completedFlag (s : State) : (advancePhase s).completedFlag = s.completedFlag := rfl
@[simp] theorem advancePhase_playbackState (s : State) : (advancePhase s).playbackState = s.playbackState := rfl
@[simp] theorem advancePhase_chimePhase (s : State) : (advancePhase s).chimePhase = s.chimePhase := rfl
@[simp] theorem advancePhase_sequenceIndex (s : State) : (advancePhase s).sequenceIndex = s.sequenceIndex := rfl
@[simp] theorem advancePhase_strikeIndex (s : State) : (advancePhase s).strikeIndex = s.strikeIndex := rfl
@[simp] theorem advancePhase_strikeCount (s : State) : (advancePhase s).strikeCount = s.strikeCount := rfl
@[simp] theorem advancePhase_noteStartTimeMs (s : State) : (advancePhase s).noteStartTimeMs = s.noteStartTimeMs := rfl
@[simp] theorem advancePhase_noteDurationMs (s : State) : (advancePhase s).noteDurationMs = s.noteDurationMs := rfl
@[simp] theorem advancePhase_begun (s : State) : (advancePhase s).begun = s.begun := rfl
@[simp] theorem advancePhase_outputPin (s : State) : (advancePhase s).outputPin = s.outputPin := rfl
@[simp] theorem advancePhase_faultCode (s : State) : (advancePhase s).faultCode = s.faultCode := rfl
@[simp] theorem advancePhase_nowMs (s : State) : (advancePhase s).nowMs = s.nowMs := rfl
@[simp] theorem advancePhase_resp (s : State) : (advancePhase s).resp = s.resp := rfl
@[simp] theorem advancePhase_outTrace (s : State) : (advancePhase s).outTrace = s.outTrace := rfl
@[simp] theorem advancePhase_waveRom (s : State) : (advancePhase s).waveRom = s.waveRom := rfl
@[simp] theorem advancePhase_melodyRom (s : State) : (advancePhase s).melodyRom = s.melodyRom := rfl
@[simp] theorem advancePhase_params (s : State) : (advancePhase s).params = s.params := rfl
@[simp] theorem advancePhase_lastChimedHour (s : State) : (advancePhase s).lastChimedHour = s.lastChimedHour := rfl
@[simp] theorem advancePhase_hostQueue (s : State) : (advancePhase s).hostQueue = s.hostQueue := rfl
@[simp] theorem advancePhase_schedule (s : State) : (advancePhase s).schedule = s.schedule := rfl
@[simp] theorem advancePhase_drawCount (s : State) : (advancePhase s).drawCount = s.drawCount := rfl
@[simp] theorem advancePhase_runMs (s : State) : (advancePhase s).runMs = s.runMs := rfl

/-! ### `toneSample`: a tone tick, 41_sample_tick.md R133-R135 -/

@[simp] theorem toneSample_phaseAccumulator (s : State) : (toneSample s).phaseAccumulator = s.phaseAccumulator + s.phaseIncrement := rfl
@[simp] theorem toneSample_phaseIncrement (s : State) : (toneSample s).phaseIncrement = s.phaseIncrement := rfl
@[simp] theorem toneSample_amplitude (s : State) : (toneSample s).amplitude = s.amplitude := rfl
@[simp] theorem toneSample_active (s : State) : (toneSample s).active = s.active := rfl
@[simp] theorem toneSample_volume (s : State) : (toneSample s).volume = s.volume := rfl
@[simp] theorem toneSample_output (s : State) : (toneSample s).output = toneByte (advancePhase s) := rfl
@[simp] theorem toneSample_sampleCount (s : State) : (toneSample s).sampleCount = s.sampleCount := rfl
@[simp] theorem toneSample_sampleTarget (s : State) : (toneSample s).sampleTarget = s.sampleTarget := rfl
@[simp] theorem toneSample_completedFlag (s : State) : (toneSample s).completedFlag = s.completedFlag := rfl
@[simp] theorem toneSample_playbackState (s : State) : (toneSample s).playbackState = s.playbackState := rfl
@[simp] theorem toneSample_chimePhase (s : State) : (toneSample s).chimePhase = s.chimePhase := rfl
@[simp] theorem toneSample_sequenceIndex (s : State) : (toneSample s).sequenceIndex = s.sequenceIndex := rfl
@[simp] theorem toneSample_strikeIndex (s : State) : (toneSample s).strikeIndex = s.strikeIndex := rfl
@[simp] theorem toneSample_strikeCount (s : State) : (toneSample s).strikeCount = s.strikeCount := rfl
@[simp] theorem toneSample_noteStartTimeMs (s : State) : (toneSample s).noteStartTimeMs = s.noteStartTimeMs := rfl
@[simp] theorem toneSample_noteDurationMs (s : State) : (toneSample s).noteDurationMs = s.noteDurationMs := rfl
@[simp] theorem toneSample_begun (s : State) : (toneSample s).begun = s.begun := rfl
@[simp] theorem toneSample_outputPin (s : State) : (toneSample s).outputPin = s.outputPin := rfl
@[simp] theorem toneSample_faultCode (s : State) : (toneSample s).faultCode = s.faultCode := rfl
@[simp] theorem toneSample_nowMs (s : State) : (toneSample s).nowMs = s.nowMs := rfl
@[simp] theorem toneSample_resp (s : State) : (toneSample s).resp = s.resp := rfl
@[simp] theorem toneSample_outTrace (s : State) : (toneSample s).outTrace = s.outTrace ++ [toneByte (advancePhase s)] := rfl
@[simp] theorem toneSample_waveRom (s : State) : (toneSample s).waveRom = s.waveRom := rfl
@[simp] theorem toneSample_melodyRom (s : State) : (toneSample s).melodyRom = s.melodyRom := rfl
@[simp] theorem toneSample_params (s : State) : (toneSample s).params = s.params := rfl
@[simp] theorem toneSample_lastChimedHour (s : State) : (toneSample s).lastChimedHour = s.lastChimedHour := rfl
@[simp] theorem toneSample_hostQueue (s : State) : (toneSample s).hostQueue = s.hostQueue := rfl
@[simp] theorem toneSample_schedule (s : State) : (toneSample s).schedule = s.schedule := rfl
@[simp] theorem toneSample_drawCount (s : State) : (toneSample s).drawCount = s.drawCount := rfl
@[simp] theorem toneSample_runMs (s : State) : (toneSample s).runMs = s.runMs := rfl

/-! ### `stampNote`: the stamps of a started note, 42_sequencer.md R155 -/

@[simp] theorem stampNote_phaseAccumulator (now : Time) (n : Word) (s : State) : (stampNote now n s).phaseAccumulator = s.phaseAccumulator := rfl
@[simp] theorem stampNote_phaseIncrement (now : Time) (n : Word) (s : State) : (stampNote now n s).phaseIncrement = s.phaseIncrement := rfl
@[simp] theorem stampNote_amplitude (now : Time) (n : Word) (s : State) : (stampNote now n s).amplitude = s.amplitude := rfl
@[simp] theorem stampNote_active (now : Time) (n : Word) (s : State) : (stampNote now n s).active = s.active := rfl
@[simp] theorem stampNote_volume (now : Time) (n : Word) (s : State) : (stampNote now n s).volume = s.volume := rfl
@[simp] theorem stampNote_output (now : Time) (n : Word) (s : State) : (stampNote now n s).output = s.output := rfl
@[simp] theorem stampNote_sampleCount (now : Time) (n : Word) (s : State) : (stampNote now n s).sampleCount = s.sampleCount := rfl
@[simp] theorem stampNote_sampleTarget (now : Time) (n : Word) (s : State) : (stampNote now n s).sampleTarget = s.sampleTarget := rfl
@[simp] theorem stampNote_completedFlag (now : Time) (n : Word) (s : State) : (stampNote now n s).completedFlag = s.completedFlag := rfl
@[simp] theorem stampNote_playbackState (now : Time) (n : Word) (s : State) : (stampNote now n s).playbackState = .playingNote := rfl
@[simp] theorem stampNote_chimePhase (now : Time) (n : Word) (s : State) : (stampNote now n s).chimePhase = s.chimePhase := rfl
@[simp] theorem stampNote_sequenceIndex (now : Time) (n : Word) (s : State) : (stampNote now n s).sequenceIndex = s.sequenceIndex := rfl
@[simp] theorem stampNote_strikeIndex (now : Time) (n : Word) (s : State) : (stampNote now n s).strikeIndex = s.strikeIndex := rfl
@[simp] theorem stampNote_strikeCount (now : Time) (n : Word) (s : State) : (stampNote now n s).strikeCount = s.strikeCount := rfl
@[simp] theorem stampNote_noteStartTimeMs (now : Time) (n : Word) (s : State) : (stampNote now n s).noteStartTimeMs = now := rfl
@[simp] theorem stampNote_noteDurationMs (now : Time) (n : Word) (s : State) : (stampNote now n s).noteDurationMs = (entryDuration n).setWidth 32 := rfl
@[simp] theorem stampNote_begun (now : Time) (n : Word) (s : State) : (stampNote now n s).begun = s.begun := rfl
@[simp] theorem stampNote_outputPin (now : Time) (n : Word) (s : State) : (stampNote now n s).outputPin = s.outputPin := rfl
@[simp] theorem stampNote_faultCode (now : Time) (n : Word) (s : State) : (stampNote now n s).faultCode = s.faultCode := rfl
@[simp] theorem stampNote_nowMs (now : Time) (n : Word) (s : State) : (stampNote now n s).nowMs = s.nowMs := rfl
@[simp] theorem stampNote_resp (now : Time) (n : Word) (s : State) : (stampNote now n s).resp = s.resp := rfl
@[simp] theorem stampNote_outTrace (now : Time) (n : Word) (s : State) : (stampNote now n s).outTrace = s.outTrace := rfl
@[simp] theorem stampNote_waveRom (now : Time) (n : Word) (s : State) : (stampNote now n s).waveRom = s.waveRom := rfl
@[simp] theorem stampNote_melodyRom (now : Time) (n : Word) (s : State) : (stampNote now n s).melodyRom = s.melodyRom := rfl
@[simp] theorem stampNote_params (now : Time) (n : Word) (s : State) : (stampNote now n s).params = s.params := rfl
@[simp] theorem stampNote_lastChimedHour (now : Time) (n : Word) (s : State) : (stampNote now n s).lastChimedHour = s.lastChimedHour := rfl
@[simp] theorem stampNote_hostQueue (now : Time) (n : Word) (s : State) : (stampNote now n s).hostQueue = s.hostQueue := rfl
@[simp] theorem stampNote_schedule (now : Time) (n : Word) (s : State) : (stampNote now n s).schedule = s.schedule := rfl
@[simp] theorem stampNote_drawCount (now : Time) (n : Word) (s : State) : (stampNote now n s).drawCount = s.drawCount := rfl
@[simp] theorem stampNote_runMs (now : Time) (n : Word) (s : State) : (stampNote now n s).runMs = s.runMs := rfl

/-! ### `enterPause`: entering the pause, 42_sequencer.md R155 -/

@[simp] theorem enterPause_phaseAccumulator (now : Time) (s : State) : (enterPause now s).phaseAccumulator = s.phaseAccumulator := rfl
@[simp] theorem enterPause_phaseIncrement (now : Time) (s : State) : (enterPause now s).phaseIncrement = s.phaseIncrement := rfl
@[simp] theorem enterPause_amplitude (now : Time) (s : State) : (enterPause now s).amplitude = s.amplitude := rfl
@[simp] theorem enterPause_active (now : Time) (s : State) : (enterPause now s).active = s.active := rfl
@[simp] theorem enterPause_volume (now : Time) (s : State) : (enterPause now s).volume = s.volume := rfl
@[simp] theorem enterPause_output (now : Time) (s : State) : (enterPause now s).output = s.output := rfl
@[simp] theorem enterPause_sampleCount (now : Time) (s : State) : (enterPause now s).sampleCount = s.sampleCount := rfl
@[simp] theorem enterPause_sampleTarget (now : Time) (s : State) : (enterPause now s).sampleTarget = s.sampleTarget := rfl
@[simp] theorem enterPause_completedFlag (now : Time) (s : State) : (enterPause now s).completedFlag = s.completedFlag := rfl
@[simp] theorem enterPause_playbackState (now : Time) (s : State) : (enterPause now s).playbackState = .gap := rfl
@[simp] theorem enterPause_chimePhase (now : Time) (s : State) : (enterPause now s).chimePhase = .pauseBeforeStrikes := rfl
@[simp] theorem enterPause_sequenceIndex (now : Time) (s : State) : (enterPause now s).sequenceIndex = s.sequenceIndex := rfl
@[simp] theorem enterPause_strikeIndex (now : Time) (s : State) : (enterPause now s).strikeIndex = s.strikeIndex := rfl
@[simp] theorem enterPause_strikeCount (now : Time) (s : State) : (enterPause now s).strikeCount = s.strikeCount := rfl
@[simp] theorem enterPause_noteStartTimeMs (now : Time) (s : State) : (enterPause now s).noteStartTimeMs = now := rfl
@[simp] theorem enterPause_noteDurationMs (now : Time) (s : State) : (enterPause now s).noteDurationMs = s.noteDurationMs := rfl
@[simp] theorem enterPause_begun (now : Time) (s : State) : (enterPause now s).begun = s.begun := rfl
@[simp] theorem enterPause_outputPin (now : Time) (s : State) : (enterPause now s).outputPin = s.outputPin := rfl
@[simp] theorem enterPause_faultCode (now : Time) (s : State) : (enterPause now s).faultCode = s.faultCode := rfl
@[simp] theorem enterPause_nowMs (now : Time) (s : State) : (enterPause now s).nowMs = s.nowMs := rfl
@[simp] theorem enterPause_resp (now : Time) (s : State) : (enterPause now s).resp = s.resp := rfl
@[simp] theorem enterPause_outTrace (now : Time) (s : State) : (enterPause now s).outTrace = s.outTrace := rfl
@[simp] theorem enterPause_waveRom (now : Time) (s : State) : (enterPause now s).waveRom = s.waveRom := rfl
@[simp] theorem enterPause_melodyRom (now : Time) (s : State) : (enterPause now s).melodyRom = s.melodyRom := rfl
@[simp] theorem enterPause_params (now : Time) (s : State) : (enterPause now s).params = s.params := rfl
@[simp] theorem enterPause_lastChimedHour (now : Time) (s : State) : (enterPause now s).lastChimedHour = s.lastChimedHour := rfl
@[simp] theorem enterPause_hostQueue (now : Time) (s : State) : (enterPause now s).hostQueue = s.hostQueue := rfl
@[simp] theorem enterPause_schedule (now : Time) (s : State) : (enterPause now s).schedule = s.schedule := rfl
@[simp] theorem enterPause_drawCount (now : Time) (s : State) : (enterPause now s).drawCount = s.drawCount := rfl
@[simp] theorem enterPause_runMs (now : Time) (s : State) : (enterPause now s).runMs = s.runMs := rfl

/-! ### `goIdle`: returning to Idle, 42_sequencer.md R155 -/

@[simp] theorem goIdle_phaseAccumulator (p : ChimePhase) (s : State) : (goIdle p s).phaseAccumulator = 0#32 := rfl
@[simp] theorem goIdle_phaseIncrement (p : ChimePhase) (s : State) : (goIdle p s).phaseIncrement = s.phaseIncrement := rfl
@[simp] theorem goIdle_amplitude (p : ChimePhase) (s : State) : (goIdle p s).amplitude = s.amplitude := rfl
@[simp] theorem goIdle_active (p : ChimePhase) (s : State) : (goIdle p s).active = false := rfl
@[simp] theorem goIdle_volume (p : ChimePhase) (s : State) : (goIdle p s).volume = s.volume := rfl
@[simp] theorem goIdle_output (p : ChimePhase) (s : State) : (goIdle p s).output = s.params.neutral := rfl
@[simp] theorem goIdle_sampleCount (p : ChimePhase) (s : State) : (goIdle p s).sampleCount = s.sampleCount := rfl
@[simp] theorem goIdle_sampleTarget (p : ChimePhase) (s : State) : (goIdle p s).sampleTarget = s.sampleTarget := rfl
@[simp] theorem goIdle_completedFlag (p : ChimePhase) (s : State) : (goIdle p s).completedFlag = s.completedFlag := rfl
@[simp] theorem goIdle_playbackState (p : ChimePhase) (s : State) : (goIdle p s).playbackState = .idle := rfl
@[simp] theorem goIdle_chimePhase (p : ChimePhase) (s : State) : (goIdle p s).chimePhase = p := rfl
@[simp] theorem goIdle_sequenceIndex (p : ChimePhase) (s : State) : (goIdle p s).sequenceIndex = s.sequenceIndex := rfl
@[simp] theorem goIdle_strikeIndex (p : ChimePhase) (s : State) : (goIdle p s).strikeIndex = s.strikeIndex := rfl
@[simp] theorem goIdle_strikeCount (p : ChimePhase) (s : State) : (goIdle p s).strikeCount = s.strikeCount := rfl
@[simp] theorem goIdle_noteStartTimeMs (p : ChimePhase) (s : State) : (goIdle p s).noteStartTimeMs = s.noteStartTimeMs := rfl
@[simp] theorem goIdle_noteDurationMs (p : ChimePhase) (s : State) : (goIdle p s).noteDurationMs = s.noteDurationMs := rfl
@[simp] theorem goIdle_begun (p : ChimePhase) (s : State) : (goIdle p s).begun = s.begun := rfl
@[simp] theorem goIdle_outputPin (p : ChimePhase) (s : State) : (goIdle p s).outputPin = s.outputPin := rfl
@[simp] theorem goIdle_faultCode (p : ChimePhase) (s : State) : (goIdle p s).faultCode = s.faultCode := rfl
@[simp] theorem goIdle_nowMs (p : ChimePhase) (s : State) : (goIdle p s).nowMs = s.nowMs := rfl
@[simp] theorem goIdle_resp (p : ChimePhase) (s : State) : (goIdle p s).resp = s.resp := rfl
@[simp] theorem goIdle_outTrace (p : ChimePhase) (s : State) : (goIdle p s).outTrace = s.outTrace ++ [s.params.neutral] := rfl
@[simp] theorem goIdle_waveRom (p : ChimePhase) (s : State) : (goIdle p s).waveRom = s.waveRom := rfl
@[simp] theorem goIdle_melodyRom (p : ChimePhase) (s : State) : (goIdle p s).melodyRom = s.melodyRom := rfl
@[simp] theorem goIdle_params (p : ChimePhase) (s : State) : (goIdle p s).params = s.params := rfl
@[simp] theorem goIdle_lastChimedHour (p : ChimePhase) (s : State) : (goIdle p s).lastChimedHour = s.lastChimedHour := rfl
@[simp] theorem goIdle_hostQueue (p : ChimePhase) (s : State) : (goIdle p s).hostQueue = s.hostQueue := rfl
@[simp] theorem goIdle_schedule (p : ChimePhase) (s : State) : (goIdle p s).schedule = s.schedule := rfl
@[simp] theorem goIdle_drawCount (p : ChimePhase) (s : State) : (goIdle p s).drawCount = s.drawCount := rfl
@[simp] theorem goIdle_runMs (p : ChimePhase) (s : State) : (goIdle p s).runMs = s.runMs := rfl

/-! ### `enterGap`: ending a note, 42_sequencer.md R162-R164 -/

@[simp] theorem enterGap_phaseAccumulator (now : Time) (s : State) : (enterGap now s).phaseAccumulator = 0#32 := rfl
@[simp] theorem enterGap_phaseIncrement (now : Time) (s : State) : (enterGap now s).phaseIncrement = s.phaseIncrement := rfl
@[simp] theorem enterGap_amplitude (now : Time) (s : State) : (enterGap now s).amplitude = s.amplitude := rfl
@[simp] theorem enterGap_active (now : Time) (s : State) : (enterGap now s).active = false := rfl
@[simp] theorem enterGap_volume (now : Time) (s : State) : (enterGap now s).volume = s.volume := rfl
@[simp] theorem enterGap_output (now : Time) (s : State) : (enterGap now s).output = s.params.neutral := rfl
@[simp] theorem enterGap_sampleCount (now : Time) (s : State) : (enterGap now s).sampleCount = s.sampleCount := rfl
@[simp] theorem enterGap_sampleTarget (now : Time) (s : State) : (enterGap now s).sampleTarget = s.sampleTarget := rfl
@[simp] theorem enterGap_completedFlag (now : Time) (s : State) : (enterGap now s).completedFlag = s.completedFlag := rfl
@[simp] theorem enterGap_playbackState (now : Time) (s : State) : (enterGap now s).playbackState = .gap := rfl
@[simp] theorem enterGap_chimePhase (now : Time) (s : State) : (enterGap now s).chimePhase = s.chimePhase := rfl
@[simp] theorem enterGap_sequenceIndex (now : Time) (s : State) : (enterGap now s).sequenceIndex = s.sequenceIndex := rfl
@[simp] theorem enterGap_strikeIndex (now : Time) (s : State) : (enterGap now s).strikeIndex = s.strikeIndex := rfl
@[simp] theorem enterGap_strikeCount (now : Time) (s : State) : (enterGap now s).strikeCount = s.strikeCount := rfl
@[simp] theorem enterGap_noteStartTimeMs (now : Time) (s : State) : (enterGap now s).noteStartTimeMs = now := rfl
@[simp] theorem enterGap_noteDurationMs (now : Time) (s : State) : (enterGap now s).noteDurationMs = s.noteDurationMs := rfl
@[simp] theorem enterGap_begun (now : Time) (s : State) : (enterGap now s).begun = s.begun := rfl
@[simp] theorem enterGap_outputPin (now : Time) (s : State) : (enterGap now s).outputPin = s.outputPin := rfl
@[simp] theorem enterGap_faultCode (now : Time) (s : State) : (enterGap now s).faultCode = s.faultCode := rfl
@[simp] theorem enterGap_nowMs (now : Time) (s : State) : (enterGap now s).nowMs = s.nowMs := rfl
@[simp] theorem enterGap_resp (now : Time) (s : State) : (enterGap now s).resp = s.resp := rfl
@[simp] theorem enterGap_outTrace (now : Time) (s : State) : (enterGap now s).outTrace = s.outTrace ++ [s.params.neutral] := rfl
@[simp] theorem enterGap_waveRom (now : Time) (s : State) : (enterGap now s).waveRom = s.waveRom := rfl
@[simp] theorem enterGap_melodyRom (now : Time) (s : State) : (enterGap now s).melodyRom = s.melodyRom := rfl
@[simp] theorem enterGap_params (now : Time) (s : State) : (enterGap now s).params = s.params := rfl
@[simp] theorem enterGap_lastChimedHour (now : Time) (s : State) : (enterGap now s).lastChimedHour = s.lastChimedHour := rfl
@[simp] theorem enterGap_hostQueue (now : Time) (s : State) : (enterGap now s).hostQueue = s.hostQueue := rfl
@[simp] theorem enterGap_schedule (now : Time) (s : State) : (enterGap now s).schedule = s.schedule := rfl
@[simp] theorem enterGap_drawCount (now : Time) (s : State) : (enterGap now s).drawCount = s.drawCount := rfl
@[simp] theorem enterGap_runMs (now : Time) (s : State) : (enterGap now s).runMs = s.runMs := rfl

/-! ### `tick`: the fields no tick writes (10_state.md R52) -/

@[simp] theorem tick_phaseIncrement (s : State) : (tick s).phaseIncrement = s.phaseIncrement := by
  unfold tick; split <;> [rfl; (split <;> rfl)]
@[simp] theorem tick_amplitude (s : State) : (tick s).amplitude = s.amplitude := by
  unfold tick; split <;> [rfl; (split <;> rfl)]
@[simp] theorem tick_volume (s : State) : (tick s).volume = s.volume := by
  unfold tick; split <;> [rfl; (split <;> rfl)]
@[simp] theorem tick_sampleTarget (s : State) : (tick s).sampleTarget = s.sampleTarget := by
  unfold tick; split <;> [rfl; (split <;> rfl)]
@[simp] theorem tick_playbackState (s : State) : (tick s).playbackState = s.playbackState := by
  unfold tick; split <;> [rfl; (split <;> rfl)]
@[simp] theorem tick_chimePhase (s : State) : (tick s).chimePhase = s.chimePhase := by
  unfold tick; split <;> [rfl; (split <;> rfl)]
@[simp] theorem tick_sequenceIndex (s : State) : (tick s).sequenceIndex = s.sequenceIndex := by
  unfold tick; split <;> [rfl; (split <;> rfl)]
@[simp] theorem tick_strikeIndex (s : State) : (tick s).strikeIndex = s.strikeIndex := by
  unfold tick; split <;> [rfl; (split <;> rfl)]
@[simp] theorem tick_strikeCount (s : State) : (tick s).strikeCount = s.strikeCount := by
  unfold tick; split <;> [rfl; (split <;> rfl)]
@[simp] theorem tick_noteStartTimeMs (s : State) : (tick s).noteStartTimeMs = s.noteStartTimeMs := by
  unfold tick; split <;> [rfl; (split <;> rfl)]
@[simp] theorem tick_noteDurationMs (s : State) : (tick s).noteDurationMs = s.noteDurationMs := by
  unfold tick; split <;> [rfl; (split <;> rfl)]
@[simp] theorem tick_begun (s : State) : (tick s).begun = s.begun := by
  unfold tick; split <;> [rfl; (split <;> rfl)]
@[simp] theorem tick_outputPin (s : State) : (tick s).outputPin = s.outputPin := by
  unfold tick; split <;> [rfl; (split <;> rfl)]
@[simp] theorem tick_faultCode (s : State) : (tick s).faultCode = s.faultCode := by
  unfold tick; split <;> [rfl; (split <;> rfl)]
@[simp] theorem tick_nowMs (s : State) : (tick s).nowMs = s.nowMs := by
  unfold tick; split <;> [rfl; (split <;> rfl)]
@[simp] theorem tick_resp (s : State) : (tick s).resp = s.resp := by
  unfold tick; split <;> [rfl; (split <;> rfl)]
@[simp] theorem tick_waveRom (s : State) : (tick s).waveRom = s.waveRom := by
  unfold tick; split <;> [rfl; (split <;> rfl)]
@[simp] theorem tick_melodyRom (s : State) : (tick s).melodyRom = s.melodyRom := by
  unfold tick; split <;> [rfl; (split <;> rfl)]
@[simp] theorem tick_params (s : State) : (tick s).params = s.params := by
  unfold tick; split <;> [rfl; (split <;> rfl)]
@[simp] theorem tick_lastChimedHour (s : State) : (tick s).lastChimedHour = s.lastChimedHour := by
  unfold tick; split <;> [rfl; (split <;> rfl)]
@[simp] theorem tick_hostQueue (s : State) : (tick s).hostQueue = s.hostQueue := by
  unfold tick; split <;> [rfl; (split <;> rfl)]
@[simp] theorem tick_schedule (s : State) : (tick s).schedule = s.schedule := by
  unfold tick; split <;> [rfl; (split <;> rfl)]
@[simp] theorem tick_drawCount (s : State) : (tick s).drawCount = s.drawCount := by
  unfold tick; split <;> [rfl; (split <;> rfl)]
@[simp] theorem tick_runMs (s : State) : (tick s).runMs = s.runMs := by
  unfold tick; split <;> [rfl; (split <;> rfl)]

end Sys2Proof.Machine
end

