-- ==== Sys2Proof/Laws/Ops.lean ====
section
/-! SUPPORT. What each shared operation can do, said once: the equations of `command`, `finish`, `andThen`, `startNote`,
`advance`, `tick`, the turns of the agents, and the ROM contents every operation keeps. Proofs cite these and unfold
nothing. -/

namespace Sys2Proof.Machine

/-! ### How a command ends -/

@[simp] theorem finish_done (s : State) : finish (.done s) = .next s := rfl

@[simp] theorem finish_raised (c : FaultCode) (s : State) : finish (.raised c s) = .next (raiseFault c s) := rfl

@[simp] theorem andThen_done (f : State → State) (s : State) : andThen (.done s) f = .done (f s) := rfl

@[simp] theorem andThen_raised (f : State → State) (c : FaultCode) (s : State) :
    andThen (.raised c s) f = .raised c s := rfl

/-- A finished rule answers its own end or the end of its raise, and nothing else (60_exceptions.md R224). -/
theorem finish_next_cases {r : Sub} {t : State} (h : finish r = .next t) :
    r = .done t ∨ ∃ c s, r = .raised c s ∧ t = raiseFault c s := by
  cases r with
  | done s => simp at h; exact .inl (by rw [h])
  | raised c s => simp at h; exact .inr ⟨c, s, rfl, h.symm⟩

/-- A finished rule always answers a next state. -/
theorem finish_next (r : Sub) : ∃ t, finish r = .next t := by
  cases r <;> exact ⟨_, rfl⟩

theorem faultByte_ne_zero (c : FaultCode) : faultByte c ≠ 0#8 := by cases c <;> decide

theorem faultByte_le (c : FaultCode) : (faultByte c).toNat ≤ 0x0C := by cases c <;> decide

/-- A fault taken in a block without one records its code (60_exceptions.md R224). -/
theorem raiseFault_eq {s : State} (h : s.faultCode = 0#8) (c : FaultCode) :
    raiseFault c s = { s with faultCode := faultByte c } := by simp [raiseFault, h]

/-- A fault taken in a faulted block changes nothing (R224). -/
theorem raiseFault_of_faulted {s : State} (h : s.faultCode ≠ 0#8) (c : FaultCode) : raiseFault c s = s := by
  rw [raiseFault, if_neg h]

/-- After a fault is taken the block is faulted. -/
theorem raiseFault_faulted (c : FaultCode) (s : State) : (raiseFault c s).faultCode ≠ 0#8 := by
  by_cases h : s.faultCode = 0#8 <;> simp only [raiseFault_faultCode, h, if_true, if_false] <;>
    first | exact faultByte_ne_zero c | simpa using h

/-! ### The checks before a command's own rule -/

/-- The rule of a command's own page. -/
def ruleOf : Instr → State → Sub
  | .begin pin => beginRule pin
  | .setVolume p => setVolumeRule p
  | .startNote f d => startNoteRule f d
  | .stopNote => stopNoteRule
  | .update => updateRule
  | .startChime n => startChimeRule n
  | .readReg r => readRegRule r
  | .isPlaying => isPlayingRule

/-- Every command is its own rule behind the checks of 30_encoding.md R84. -/
theorem exec_eq_command (i : Instr) (s : State) : exec i s = command i (ruleOf i) s := by cases i <;> rfl

/-- A command a begun block without a fault takes runs its own rule. -/
theorem exec_of_running {i : Instr} {s : State} (hf : s.faultCode = 0#8) (hb : s.begun = true) :
    exec i s = finish (ruleOf i s) := by simp [exec_eq_command, command, hf, hb]

/-- A command that does not need BEGIN runs its own rule in any block without a fault. -/
theorem exec_of_free {i : Instr} {s : State} (hf : s.faultCode = 0#8) (hn : needsBegun i = false) :
    exec i s = finish (ruleOf i s) := by simp [exec_eq_command, command, hf, hn]

/-- A command that needs BEGIN raises NOT_BEGUN before it. -/
theorem exec_of_notBegun {i : Instr} {s : State} (hf : s.faultCode = 0#8) (hn : needsBegun i = true)
    (hb : s.begun = false) : exec i s = .next (raiseFault .notBegun s) := by
  simp [exec_eq_command, command, hf, hn, hb]

/-- A faulted block runs the reads and turns every other command away. -/
theorem exec_of_faulted {i : Instr} {s : State} (hf : s.faultCode ≠ 0#8) :
    exec i s = if legalWhenFaulted i then finish (ruleOf i s) else .fault .hostStuck := by
  simp [exec_eq_command, command, hf]

/-- The commands a faulted block takes. -/
theorem legalWhenFaulted_iff (i : Instr) :
    legalWhenFaulted i = true ↔ i = .isPlaying ∨ ∃ r : Byte, r.toNat ≤ 0x0F ∧ i = .readReg r := by
  cases i <;> simp [legalWhenFaulted, BitVec.le_def]

/-- Everything a command that answers a next state can have done: its own rule, or NOT_BEGUN. -/
theorem exec_next_cases {i : Instr} {s t : State} (h : exec i s = .next t) :
    (finish (ruleOf i s) = .next t ∧ (s.faultCode = 0#8 ∨ legalWhenFaulted i = true)) ∨
    (s.faultCode = 0#8 ∧ needsBegun i = true ∧ s.begun = false ∧ t = raiseFault .notBegun s) := by
  rw [exec_eq_command] at h
  unfold command at h
  split at h
  · split at h
    · exact .inl ⟨h, .inr ‹_›⟩
    · cases h
  · rename_i hf
    simp only [ne_eq, not_not] at hf
    split at h
    · rename_i hn
      simp only [Bool.and_eq_true, Bool.not_eq_true'] at hn
      cases h
      exact .inr ⟨hf, hn.1, hn.2, rfl⟩
    · exact .inl ⟨h, .inl hf⟩

/-! ### Note starts -/

/-- `startNote` either raises without a write or makes exactly the writes of R105, for parameters that are legal. -/
theorem startNote_cases (f d : Half) (s : State) :
    (∃ c, startNote f d s = .raised c s) ∨
    (s.active = false ∧ ∃ inc tgt, noteParams s.params f d = .ok (inc, tgt) ∧
      startNote f d s = .done (soundNote inc tgt s)) := by
  unfold startNote
  split
  · exact .inl ⟨_, rfl⟩
  · rename_i ha
    cases hp : noteParams s.params f d with
    | error c => exact .inl ⟨c, rfl⟩
    | ok p => exact .inr ⟨by simpa using ha, p.1, p.2, rfl, rfl⟩

/-- With nothing sounding and legal parameters, `startNote` starts the note. -/
theorem startNote_ok {f d : Half} {s : State} {inc tgt : Word} (ha : s.active = false)
    (hp : noteParams s.params f d = .ok (inc, tgt)) : startNote f d s = .done (soundNote inc tgt s) := by
  simp [startNote, ha, hp]

/-- The parameters `noteParams` answers are the rounded quotients of R103; the target is positive. -/
theorem noteParams_ok {P : Params} {f d : Half} {inc tgt : Word} (h : noteParams P f d = .ok (inc, tgt)) :
    inc.toNat = noteIncrement P f ∧ tgt.toNat = noteTarget P d ∧ 0 < tgt.toNat ∧ f ≠ 0#16 := by
  unfold noteParams at h
  split at h
  · cases h
  split at h
  · cases h
  split at h
  · cases h
  split at h
  · cases h
  rename_i hf hi hz ht
  cases h
  simp only [BitVec.toNat_ofNat]
  rw [Nat.mod_eq_of_lt (by omega), Nat.mod_eq_of_lt (by omega)]
  exact ⟨rfl, rfl, by omega, hf⟩

/-! ### The tick -/

/-- An inactive tick changes nothing. -/
theorem tick_inactive {s : State} (h : s.active = false) : tick s = s := by simp [tick, h]

/-- The stop tick. -/
theorem tick_stop {s : State} (ha : s.active = true) (h : s.sampleTarget ≤ s.sampleCount + 1#32) :
    tick s = failsafeStop (countSample s) := by simp [tick, ha, h]

/-- A tone tick. -/
theorem tick_tone {s : State} (ha : s.active = true) (h : ¬s.sampleTarget ≤ s.sampleCount + 1#32) :
    tick s = toneSample (countSample s) := by simp [tick, ha, h]

/-! ### Turns -/

@[simp] theorem agentTurn_tick (s : State) : agentTurn .tick s = tickTurn s := rfl

@[simp] theorem agentTurn_host (s : State) : agentTurn .host s = hostTurn s := rfl

@[simp] theorem agentTurn_clock (s : State) : agentTurn .clock s = clockTurn s := rfl

@[simp] theorem run_zero (s : State) : core.run 0 s = .next s := rfl

/-- A run of any machine goes on from what its first step answers. -/
theorem run_of_next (M : Host.Core) (k : Nat) (s t : M.State) (h : M.step s = .next t) :
    M.run (k + 1) s = M.run k t := by
  simp [Host.Core.run, h]

/-- A run goes on from what its first step answers. -/
theorem run_next {k : Nat} {s t : State} (h : step s = .next t) : core.run (k + 1) s = core.run k t :=
  run_of_next core k s t h

/-- A turn the schedule gives. -/
theorem step_scheduled {s : State} {a : Agent} {turns : List Agent} (h : s.schedule = a :: turns) :
    step s = agentTurn a { s with schedule := turns } := by simp [step, nextTurn, h]

/-- A turn a free value gives. -/
theorem step_drawn {s : State} (h : s.schedule = []) :
    step s = agentTurn (Config.freeAgent s.drawCount) { s with drawCount := s.drawCount + 1 } := by
  simp [step, nextTurn, h]

/-- A step is some agent's turn on a state that differs only in the model's own record of turns. -/
theorem step_turn (s : State) :
    ∃ a turns n, step s = agentTurn a { s with schedule := turns, drawCount := n } := by
  cases h : s.schedule with
  | nil => exact ⟨_, s.schedule, s.drawCount + 1, step_drawn h⟩
  | cons a turns => exact ⟨a, turns, s.drawCount, step_scheduled h⟩

/-- A block takes any word while it has no fault, and the reads always (30_encoding.md R84). -/
theorem hostAccepts_of_ok {w : CommandWord} {i : Instr} {s : State} (hd : decode w = .ok i) :
    hostAccepts w s = true ↔ s.faultCode = 0#8 ∨ legalWhenFaulted i = true := by
  simp [hostAccepts, hd]

/-- A word that is no command is taken only by a block without a fault (R84). -/
theorem hostAccepts_of_error {w : CommandWord} {e : DecodeError} {s : State} (hd : decode w = .error e) :
    hostAccepts w s = true ↔ s.faultCode = 0#8 := by
  simp [hostAccepts, hd]

/-- HOST's turn with a word the block takes as a command. -/
theorem hostTurn_command {w : CommandWord} {q : List HostAction} {i : Instr} {s : State}
    (hq : s.hostQueue = .word w :: q) (hd : decode w = .ok i) (hl : s.faultCode = 0#8 ∨ legalWhenFaulted i = true) :
    hostTurn s = exec i { s with hostQueue := q } := by
  unfold hostTurn
  rw [hq]
  simp only [(hostAccepts_of_ok hd).2 hl, if_true, runWord, hd]

/-- HOST's turn with a word that is no command, in a block without a fault. -/
theorem hostTurn_noCommand {w : CommandWord} {q : List HostAction} {e : DecodeError} {s : State}
    (hq : s.hostQueue = .word w :: q) (hd : decode w = .error e) (hf : s.faultCode = 0#8) :
    hostTurn s = .next (raiseFault (decodeFault e) { s with hostQueue := q }) := by
  unfold hostTurn
  rw [hq]
  simp only [(hostAccepts_of_error hd).2 hf, if_true, runWord, hd]

/-- HOST's turn with a word it has no step for. -/
theorem hostTurn_stuck {w : CommandWord} {q : List HostAction} {s : State}
    (hq : s.hostQueue = .word w :: q) (ha : hostAccepts w s = false) : hostTurn s = .next s := by
  unfold hostTurn
  rw [hq]
  simp [ha]

/-- Everything a turn of HOST that answers a next state can have been (30_encoding.md R84, 48_host_trigger.md R203). -/
theorem hostTurn_next_cases {s t : State} (h : hostTurn s = .next t) :
    t = s ∨
    (∃ w q i, s.hostQueue = .word w :: q ∧ decode w = .ok i ∧ hostAccepts w s = true ∧
      exec i { s with hostQueue := q } = .next t) ∨
    (∃ w q e, s.hostQueue = .word w :: q ∧ decode w = .error e ∧ s.faultCode = 0#8 ∧
      t = raiseFault (decodeFault e) { s with hostQueue := q }) ∨
    (∃ hour m sec q, s.hostQueue = .maybeChime hour m sec :: q ∧
      t = maybeChime hour m sec { s with hostQueue := q }) ∨
    (∃ hour q, s.hostQueue = .chimeIfIdle hour :: q ∧ t = chimeIfIdle hour { s with hostQueue := q }) := by
  unfold hostTurn at h
  split at h
  · cases h; exact .inl rfl
  · rename_i w q hq
    split at h
    · rename_i ha
      unfold runWord at h
      split at h
      · rename_i e he
        cases h
        refine .inr (.inr (.inl ⟨w, q, e, hq, he, ?_, rfl⟩))
        simpa [hostAccepts, he] using ha
      · rename_i i hi
        exact .inr (.inl ⟨w, q, i, hq, hi, ha, h⟩)
    · cases h; exact .inl rfl
  · rename_i hour m sec q hq
    split at h
    · cases h; exact .inr (.inr (.inr (.inl ⟨hour, m, sec, q, hq, rfl⟩)))
    · cases h
  · rename_i hour q hq
    cases h; exact .inr (.inr (.inr (.inr ⟨hour, q, hq, rfl⟩)))

/-- Everything a turn of TICK can have been. -/
theorem tickTurn_next_cases {s t : State} (h : tickTurn s = .next t) :
    (t = tick s ∧ s.begun = true ∧ s.faultCode = 0#8) ∨ t = s := by
  unfold tickTurn at h
  split at h
  · rename_i he
    cases h
    simp only [tickEnabled, Bool.and_eq_true, beq_iff_eq] at he
    exact .inl ⟨rfl, he.1, he.2⟩
  · cases h; exact .inr rfl

/-- Everything a turn of CLOCK that answers a next state can have been. -/
theorem clockTurn_next_cases {s t : State} (h : clockTurn s = .next t) :
    t = { s with nowMs := s.nowMs + 1#64, runMs := s.runMs + 1 } ∧ s.runMs + 1 < Config.runLimitMs := by
  unfold clockTurn at h
  split at h
  · cases h; exact ⟨rfl, ‹_›⟩
  · cases h

/-- The two halves of `maybeChime` write only the host's own fields (48_host_trigger.md R200). -/
theorem maybeChime_eq (h m sec : Nat) (s : State) :
    maybeChime h m sec s = { s with hostQueue := (maybeChime h m sec s).hostQueue } := by
  unfold maybeChime; split <;> rfl

theorem chimeIfIdle_eq (h : Nat) (s : State) :
    chimeIfIdle h s = { s with
      lastChimedHour := (chimeIfIdle h s).lastChimedHour, hostQueue := (chimeIfIdle h s).hostQueue } := by
  unfold chimeIfIdle; split <;> rfl

/-! ### Memory: the shared operations keep the ROM contents, and so their legality (20_memory.md R60) -/

theorem outWrite_wf (v : Byte) (s : State) : Memory.wf (outWrite v s) ↔ Memory.wf s := Iff.rfl

theorem raiseFault_wf (c : FaultCode) (s : State) : Memory.wf (raiseFault c s) ↔ Memory.wf s := Iff.rfl

theorem soundNote_wf (inc tgt : Word) (s : State) : Memory.wf (soundNote inc tgt s) ↔ Memory.wf s := Iff.rfl

theorem stopNote_wf (s : State) : Memory.wf (stopNote s) ↔ Memory.wf s := Iff.rfl

theorem tick_wf (s : State) : Memory.wf (tick s) ↔ Memory.wf s := by simp [Memory.wf]

/-- The stand-in of the waveform table is legal. -/
theorem standInWave_legal : waveLegal Config.standInWave := by
  refine ⟨?_, ⟨0, by decide⟩, ⟨1, by decide⟩⟩
  intro i
  fin_cases i <;> decide

/-- The stand-in of the melody is legal. -/
theorem standInMelody_legal : melodyLegal Config.standInMelody := by decide +kernel

/-- `Config.restrict` answers a legal value if its stand-in is legal. -/
theorem restrict_legal {α : Type} (legal : α → Prop) [DecidablePred legal] (free standIn : α) (h : legal standIn) :
    legal (Config.restrict legal free standIn) := by
  unfold Config.restrict; split <;> assumption

end Sys2Proof.Machine
end

