-- ==== Sys2Proof/Laws/Runs.lean ====
section
/-! SUPPORT. What the terms of runs mean, said once: the choice of a turn, the observation of a run
(70_reset_and_hazards.md R263), and the fires of the hourly trigger (48_host_trigger.md R203, R205). -/

namespace Sys2Proof.Machine

/-! ### The choice of a turn writes only the model's own record of turns -/

theorem nextTurn_eq (s : State) :
    (nextTurn s).2 = { s with schedule := (nextTurn s).2.schedule, drawCount := (nextTurn s).2.drawCount } := by
  unfold nextTurn; split <;> rfl

@[simp] theorem nextTurn_hostQueue (s : State) : (nextTurn s).2.hostQueue = s.hostQueue := by rw [nextTurn_eq]

@[simp] theorem nextTurn_resp (s : State) : (nextTurn s).2.resp = s.resp := by rw [nextTurn_eq]

@[simp] theorem nextTurn_lastChimedHour (s : State) : (nextTurn s).2.lastChimedHour = s.lastChimedHour := by
  rw [nextTurn_eq]

/-! ### The observation of a run (R263) -/

@[simp] theorem observe_zero (s : State) : observe 0 s = some (s, []) := rfl

theorem observe_next {k : Nat} {s t : State} (h : step s = .next t) :
    observe (k + 1) s = (observe k t).map fun r => (r.1, responseOf s t ++ r.2) := by simp only [observe, h]

/-- A run that has ended goes no further. -/
theorem observeRun_of_ended {s : State} (h : ended s) (fuel : Nat) : observeRun fuel s = some (s, []) := by
  cases fuel <;> simp only [observeRun, if_pos h]

/-- A run that has not ended goes on with its next step. -/
theorem observeRun_next {fuel : Nat} {s t : State} (he : ¬ended s) (h : step s = .next t) :
    observeRun (fuel + 1) s = (observeRun fuel t).map fun r => (r.1, responseOf s t ++ r.2) := by
  simp only [observeRun, if_neg he, h]

/-! ### The hourly trigger -/

/-- A queue without second halves of calls is orderly. -/
theorem triggerOrderly_of_noHalfCall {s : State} (h : noHalfCall s.hostQueue) : triggerOrderly s := by
  unfold triggerOrderly
  split
  · rename_i hour queue e; exact absurd (e ▸ List.mem_cons_self) (h hour)
  · rename_i w hour queue e; exact absurd (e ▸ List.mem_cons_of_mem _ List.mem_cons_self) (h hour)
  · exact h

/-- A fire records its hour and gives the block START_CHIME with that hour's strikes (R203). -/
theorem step_of_fires {h : Nat} {s t : State} (hf : fires h s) (hs : step s = .next t) :
    t.lastChimedHour = some h ∧
    ∃ queue, s.hostQueue = .chimeIfIdle h :: queue ∧
      t.hostQueue = .word (encode (.startChime (BitVec.ofNat 8 (strikesFor h)))) :: queue := by
  obtain ⟨ha, ⟨queue, hq⟩, hr⟩ := hf
  rw [step, ha, agentTurn_host] at hs
  unfold hostTurn at hs
  rw [nextTurn_hostQueue, hq] at hs
  cases hs
  simp [chimeIfIdle, hr, hq]

end Sys2Proof.Machine
end

