-- ==== Sys2Proof/Laws/Sequencer.lean ====
section
/-! SUPPORT. What each part of the sequencer does, said once (42_sequencer.md R152-R168): starting a ROM entry, `advance`
by phase, each step of UPDATE, and UPDATE by sub-state; and the fields no command and no tick writes. -/

namespace Sys2Proof.Machine

/-! ### Starting a ROM entry -/

/-- The strike counts R158 takes. -/
theorem strikesInRange_iff (n : Byte) : strikesInRange n = true ↔ 1 ≤ n.toNat ∧ n.toNat ≤ 12 := by
  unfold strikesInRange
  rw [Bool.and_eq_true, decide_eq_true_eq, decide_eq_true_eq]
  rfl

/-- Starting the melody note at `sequenceIndex` either raises without a write or starts it (R155). -/
theorem startMelodyNote_cases (now : Time) (s : State) :
    (∃ c, startMelodyNote now s = .raised c s) ∨
    (s.active = false ∧ ∃ inc tgt, entryParams s (s.melodyRom.get (Fin.ofNat 17 s.sequenceIndex.toNat)) inc tgt ∧
      startMelodyNote now s = .done (notePlaying now (s.melodyRom.get (Fin.ofNat 17 s.sequenceIndex.toNat)) inc tgt
        { s with sequenceIndex := s.sequenceIndex + 1#32 })) := by
  unfold startMelodyNote memReadMelody
  rcases startNote_cases (entryFrequency (s.melodyRom.get (Fin.ofNat 17 s.sequenceIndex.toNat)))
    (entryDuration (s.melodyRom.get (Fin.ofNat 17 s.sequenceIndex.toNat))) s with ⟨c, h⟩ | ⟨ha, inc, tgt, hp, h⟩
  · exact .inl ⟨c, by simp only [h, andThen_raised]⟩
  · exact .inr ⟨ha, inc, tgt, hp, by simp only [h, andThen_done]; rfl⟩

/-- With nothing sounding and legal parameters it starts it. -/
theorem startMelodyNote_ok {now : Time} {s : State} {inc tgt : Word} (ha : s.active = false)
    (hp : entryParams s (s.melodyRom.get (Fin.ofNat 17 s.sequenceIndex.toNat)) inc tgt) :
    startMelodyNote now s = .done (notePlaying now (s.melodyRom.get (Fin.ofNat 17 s.sequenceIndex.toNat)) inc tgt
      { s with sequenceIndex := s.sequenceIndex + 1#32 }) := by
  simp only [startMelodyNote, memReadMelody, startNote_ok ha hp, andThen_done]; rfl

/-- Starting a strike either raises without a write or starts it (R156). -/
theorem startStrike_cases (now : Time) (s : State) :
    (∃ c, startStrike now s = .raised c s) ∨
    (s.active = false ∧ ∃ inc tgt, entryParams s (s.melodyRom.get 16) inc tgt ∧
      startStrike now s = .done (notePlaying now (s.melodyRom.get 16) inc tgt
        { s with strikeIndex := s.strikeIndex + 1#32 })) := by
  unfold startStrike memReadMelody
  rcases startNote_cases (entryFrequency (s.melodyRom.get 16)) (entryDuration (s.melodyRom.get 16)) s
    with ⟨c, h⟩ | ⟨ha, inc, tgt, hp, h⟩
  · exact .inl ⟨c, by simp only [h, andThen_raised]⟩
  · exact .inr ⟨ha, inc, tgt, hp, by simp only [h, andThen_done]; rfl⟩

/-- With nothing sounding and legal parameters it starts it. -/
theorem startStrike_ok {now : Time} {s : State} {inc tgt : Word} (ha : s.active = false)
    (hp : entryParams s (s.melodyRom.get 16) inc tgt) :
    startStrike now s = .done (notePlaying now (s.melodyRom.get 16) inc tgt
      { s with strikeIndex := s.strikeIndex + 1#32 }) := by
  simp only [startStrike, memReadMelody, startNote_ok ha hp, andThen_done]; rfl

/-! ### `advance`, by phase (R155) -/

theorem advance_melody {now : Time} {s : State} (h : s.chimePhase = .melody) (hl : s.sequenceIndex.toNat < 16) :
    advance now s = startMelodyNote now s := by simp only [advance, h, Config.melodyLen, hl, if_true]

theorem advance_melody_end {now : Time} {s : State} (h : s.chimePhase = .melody) (hl : 16 ≤ s.sequenceIndex.toNat) :
    advance now s = .done (enterPause now s) := by
  have hn : ¬s.sequenceIndex.toNat < 16 := Nat.not_lt.2 hl
  simp only [advance, h, Config.melodyLen, hn, if_false]

theorem advance_pause {now : Time} {s : State} (h : s.chimePhase = .pauseBeforeStrikes) :
    advance now s = startStrike now { s with chimePhase := .strikes, strikeIndex := 0#32 } := by
  simp only [advance, h]

theorem advance_strikes {now : Time} {s : State} (h : s.chimePhase = .strikes) (hl : s.strikeIndex < s.strikeCount) :
    advance now s = startStrike now s := by simp only [advance, h, hl, if_true]

theorem advance_strikes_end {now : Time} {s : State} (h : s.chimePhase = .strikes)
    (hl : ¬s.strikeIndex < s.strikeCount) : advance now s = .done (goIdle .complete s) := by
  simp only [advance, h, hl, if_false]

theorem advance_rest {now : Time} {s : State} (h : s.chimePhase = .none ∨ s.chimePhase = .complete) :
    advance now s = .done (goIdle .none s) := by
  rcases h with h | h <;> simp only [advance, h]

/-! ### The steps of UPDATE (R162-R166) -/

theorem pollCompleted_of_false {now : Time} {s : State} (h : s.completedFlag = false) : pollCompleted now s = s := by
  simp [pollCompleted, h]

theorem pollCompleted_of_true {now : Time} {s : State} (h : s.completedFlag = true) :
    pollCompleted now s = gapEntered now { s with completedFlag := false } := by
  rw [pollCompleted, if_pos h]; rfl

theorem pollRepair_of_busy {now : Time} {s : State} (h : s.playbackState ≠ .idle) : pollRepair now s = s := by
  simp [pollRepair, h]

theorem pollRepair_of_inactive {now : Time} {s : State} (h : s.active = false) : pollRepair now s = s := by
  simp [pollRepair, h]

theorem pollNoteEnd_of_other {now : Time} {s : State} (h : s.playbackState ≠ .playingNote) : pollNoteEnd now s = s := by
  simp [pollNoteEnd, h]

theorem pollNoteEnd_due {now : Time} {s : State} (h : s.playbackState = .playingNote)
    (hd : s.noteDurationMs.toNat ≤ elapsed now s) : pollNoteEnd now s = gapEntered now s := by
  rw [pollNoteEnd, if_pos ⟨h, hd⟩]; rfl

theorem pollGapEnd_of_other {now : Time} {s : State} (h : s.playbackState ≠ .gap) : pollGapEnd now s = .done s := by
  simp [pollGapEnd, h]

theorem pollGapEnd_early {now : Time} {s : State} (h : elapsed now s < gapLength s) : pollGapEnd now s = .done s := by
  rw [pollGapEnd, if_neg (fun e => absurd e.2 (Nat.not_le.2 h))]

theorem pollGapEnd_due {now : Time} {s : State} (h : s.playbackState = .gap) (hd : gapLength s ≤ elapsed now s) :
    pollGapEnd now s = advance now s := by rw [pollGapEnd, if_pos ⟨h, hd⟩]

theorem pollCycleEnd_of_busy {s : State} (h : s.playbackState ≠ .idle) : pollCycleEnd s = s := by
  simp [pollCycleEnd, h]

theorem pollCycleEnd_of_phase {s : State} (h : s.chimePhase ≠ .complete) : pollCycleEnd s = s := by
  simp [pollCycleEnd, h]

theorem elapsed_of_stamp {now : Time} {s : State} (h : s.noteStartTimeMs = now) : elapsed now s = 0 := by
  simp [elapsed, h]

/-- A gap just entered has lasted 0 ms. -/
@[simp] theorem elapsed_gapEntered (now : Time) (s : State) : elapsed now (gapEntered now s) = 0 := elapsed_of_stamp rfl

/-! ### UPDATE, by sub-state (R161) -/

/-- In `Gap` only step 4 can act. -/
theorem updateRule_gap {s : State} (hp : s.playbackState = .gap) (hc : s.completedFlag = false) :
    updateRule s = andThen (pollGapEnd s.nowMs s) pollCycleEnd := by
  have hi : s.playbackState ≠ .idle := by simp [hp]
  have hn : s.playbackState ≠ .playingNote := by simp [hp]
  simp only [updateRule, pollCompleted_of_false hc, pollRepair_of_busy hi, pollNoteEnd_of_other hn]

/-- A note still sounding, before its time, is left alone. -/
theorem updateRule_sounding {s : State} (hp : s.playbackState = .playingNote) (hc : s.completedFlag = false)
    (hd : elapsed s.nowMs s < s.noteDurationMs.toNat) : updateRule s = .done s := by
  have hi : s.playbackState ≠ .idle := by simp [hp]
  have hg : s.playbackState ≠ .gap := by simp [hp]
  have hn : pollNoteEnd s.nowMs s = s := by
    rw [pollNoteEnd, if_neg (fun e => absurd e.2 (Nat.not_le.2 hd))]
  simp only [updateRule, pollCompleted_of_false hc, pollRepair_of_busy hi, hn, pollGapEnd_of_other hg, andThen_done,
    pollCycleEnd_of_busy hi]

/-- A note that ends enters `Gap`, and a gap of positive length does not end in the same UPDATE (R162, R164, R170). -/
theorem updateRule_ends {s : State} (hp : s.playbackState = .playingNote) (hl : 0 < gapLength s)
    (hd : s.completedFlag = true ∨ s.noteDurationMs.toNat ≤ elapsed s.nowMs s) :
    updateRule s = .done (gapEntered s.nowMs { s with completedFlag := false }) := by
  have he : pollGapEnd s.nowMs (gapEntered s.nowMs { s with completedFlag := false }) =
      .done (gapEntered s.nowMs { s with completedFlag := false }) :=
    pollGapEnd_early (by rw [elapsed_gapEntered]; exact hl)
  have hi : (gapEntered s.nowMs { s with completedFlag := false }).playbackState ≠ .idle := by simp [gapEntered]
  cases hc : s.completedFlag with
  | true =>
    simp only [updateRule]
    rw [pollCompleted_of_true hc, pollRepair_of_busy hi, pollNoteEnd_of_other (by simp [gapEntered]), he, andThen_done,
      pollCycleEnd_of_busy hi]
  | false =>
    have hs : { s with completedFlag := false } = s := by rw [← hc]
    rw [hs] at he hi ⊢
    simp only [updateRule]
    rw [pollCompleted_of_false hc, pollRepair_of_busy (by simp [hp]),
      pollNoteEnd_due hp (hd.resolve_left (by simp [hc])), he, andThen_done, pollCycleEnd_of_busy hi]

/-- Steps 1 to 3 of UPDATE act at most once: they leave the state alone, or end the sounding or completed note
(R162-R164). -/
theorem updateRule_cases (s : State) :
    (s.completedFlag = false ∧
      ¬(s.active = true ∧ s.playbackState = .idle ∧ s.noteDurationMs.toNat < elapsed s.nowMs s) ∧
      ¬(s.playbackState = .playingNote ∧ s.noteDurationMs.toNat ≤ elapsed s.nowMs s) ∧
      updateRule s = andThen (pollGapEnd s.nowMs s) pollCycleEnd) ∨
    ((s.completedFlag = true ∨
      (s.active = true ∧ s.playbackState = .idle ∧ s.noteDurationMs.toNat < elapsed s.nowMs s) ∨
      (s.playbackState = .playingNote ∧ s.noteDurationMs.toNat ≤ elapsed s.nowMs s)) ∧
      updateRule s = andThen (pollGapEnd s.nowMs (gapEntered s.nowMs { s with completedFlag := false })) pollCycleEnd) := by
  have hi : (gapEntered s.nowMs { s with completedFlag := false }).playbackState ≠ .idle := by simp [gapEntered]
  have hn : (gapEntered s.nowMs { s with completedFlag := false }).playbackState ≠ .playingNote := by simp [gapEntered]
  cases hc : s.completedFlag with
  | true =>
    refine .inr ⟨.inl rfl, ?_⟩
    simp only [updateRule]
    rw [pollCompleted_of_true hc, pollRepair_of_busy hi, pollNoteEnd_of_other hn]
  | false =>
    have hs : { s with completedFlag := false } = s := by rw [← hc]
    rw [hs] at hi hn ⊢
    simp only [updateRule]
    rw [pollCompleted_of_false hc]
    by_cases h2 : s.active = true ∧ s.playbackState = .idle ∧ s.noteDurationMs.toNat < elapsed s.nowMs s
    · refine .inr ⟨.inr (.inl h2), ?_⟩
      have e : pollRepair s.nowMs s = gapEntered s.nowMs s := by rw [pollRepair, if_pos h2]; rfl
      rw [e, pollNoteEnd_of_other hn]
    · have e : pollRepair s.nowMs s = s := by rw [pollRepair, if_neg h2]
      rw [e]
      by_cases h3 : s.playbackState = .playingNote ∧ s.noteDurationMs.toNat ≤ elapsed s.nowMs s
      · exact .inr ⟨.inr (.inr h3), by rw [pollNoteEnd_due h3.1 h3.2]⟩
      · exact .inl ⟨trivial, h2, h3, by rw [pollNoteEnd, if_neg h3]⟩

/-! ### The strikes started in the current cycle (10_state.md R35) -/

theorem strikesStarted_before {s : State} (h : s.chimePhase = .melody ∨ s.chimePhase = .pauseBeforeStrikes) :
    strikesStarted s = 0 := by rcases h with h | h <;> simp only [strikesStarted, h]

theorem strikesStarted_after {s : State} (hm : s.chimePhase ≠ .melody) (hp : s.chimePhase ≠ .pauseBeforeStrikes) :
    strikesStarted s = s.strikeIndex.toNat := by
  unfold strikesStarted; split <;> first | rfl | contradiction

/-! ### What no command and no tick writes -/

/-- The ROMs, the parameters, the clock, the host's own fields and the model's own are the same in both states. -/
def SameOutside (s t : State) : Prop :=
  t.waveRom = s.waveRom ∧ t.melodyRom = s.melodyRom ∧ t.params = s.params ∧ t.nowMs = s.nowMs ∧
  t.lastChimedHour = s.lastChimedHour ∧ t.hostQueue = s.hostQueue ∧ t.schedule = s.schedule ∧
  t.drawCount = s.drawCount ∧ t.runMs = s.runMs

theorem SameOutside.refl (s : State) : SameOutside s s := by simp [SameOutside]

theorem SameOutside.trans {a b c : State} (h : SameOutside a b) (g : SameOutside b c) : SameOutside a c := by
  unfold SameOutside at *; simp_all

/-- `SameOutside`, and the same fault code, `begun`, pin, volume and response too. -/
def SameControl (s t : State) : Prop :=
  SameOutside s t ∧ t.faultCode = s.faultCode ∧ t.begun = s.begun ∧ t.outputPin = s.outputPin ∧
  t.volume = s.volume ∧ t.resp = s.resp

theorem SameControl.refl (s : State) : SameControl s s := by simp [SameControl, SameOutside.refl]

theorem SameControl.trans {a b c : State} (h : SameControl a b) (g : SameControl b c) : SameControl a c :=
  ⟨h.1.trans g.1, by simp [h.2, g.2]⟩

/-- The state in which a command's own rule ends. -/
def endOf : Sub → State
  | .done s => s
  | .raised _ s => s

theorem startMelodyNote_sameControl (now : Time) (s : State) : SameControl s (endOf (startMelodyNote now s)) := by
  rcases startMelodyNote_cases now s with ⟨c, h⟩ | ⟨-, inc, tgt, -, h⟩ <;> rw [h]
  · exact .refl s
  · exact ⟨⟨rfl, rfl, rfl, rfl, rfl, rfl, rfl, rfl, rfl⟩, rfl, rfl, rfl, rfl, rfl⟩

theorem startStrike_sameControl (now : Time) (s : State) : SameControl s (endOf (startStrike now s)) := by
  rcases startStrike_cases now s with ⟨c, h⟩ | ⟨-, inc, tgt, -, h⟩ <;> rw [h]
  · exact .refl s
  · exact ⟨⟨rfl, rfl, rfl, rfl, rfl, rfl, rfl, rfl, rfl⟩, rfl, rfl, rfl, rfl, rfl⟩

theorem advance_sameControl (now : Time) (s : State) : SameControl s (endOf (advance now s)) := by
  unfold advance
  split
  · split
    · exact startMelodyNote_sameControl now s
    · exact ⟨⟨rfl, rfl, rfl, rfl, rfl, rfl, rfl, rfl, rfl⟩, rfl, rfl, rfl, rfl, rfl⟩
  · exact startStrike_sameControl now { s with chimePhase := .strikes, strikeIndex := 0#32 }
  · split
    · exact startStrike_sameControl now s
    · exact ⟨⟨rfl, rfl, rfl, rfl, rfl, rfl, rfl, rfl, rfl⟩, rfl, rfl, rfl, rfl, rfl⟩
  · exact ⟨⟨rfl, rfl, rfl, rfl, rfl, rfl, rfl, rfl, rfl⟩, rfl, rfl, rfl, rfl, rfl⟩
  · exact ⟨⟨rfl, rfl, rfl, rfl, rfl, rfl, rfl, rfl, rfl⟩, rfl, rfl, rfl, rfl, rfl⟩

theorem updateRule_sameControl (s : State) : SameControl s (endOf (updateRule s)) := by
  have h1 : SameControl s (pollCompleted s.nowMs s) := by
    unfold pollCompleted; split <;> exact ⟨⟨rfl, rfl, rfl, rfl, rfl, rfl, rfl, rfl, rfl⟩, rfl, rfl, rfl, rfl, rfl⟩
  have h2 : ∀ u, SameControl u (pollRepair s.nowMs u) := by
    intro u; unfold pollRepair; split <;> exact ⟨⟨rfl, rfl, rfl, rfl, rfl, rfl, rfl, rfl, rfl⟩, rfl, rfl, rfl, rfl, rfl⟩
  have h3 : ∀ u, SameControl u (pollNoteEnd s.nowMs u) := by
    intro u; unfold pollNoteEnd; split <;> exact ⟨⟨rfl, rfl, rfl, rfl, rfl, rfl, rfl, rfl, rfl⟩, rfl, rfl, rfl, rfl, rfl⟩
  have h4 : ∀ u, SameControl u (endOf (pollGapEnd s.nowMs u)) := by
    intro u; unfold pollGapEnd; split
    · exact advance_sameControl _ u
    · exact .refl u
  have h5 : ∀ u, SameControl u (pollCycleEnd u) := by
    intro u; unfold pollCycleEnd; split <;> exact ⟨⟨rfl, rfl, rfl, rfl, rfl, rfl, rfl, rfl, rfl⟩, rfl, rfl, rfl, rfl, rfl⟩
  have h6 : ∀ r, SameControl (endOf r) (endOf (andThen r pollCycleEnd)) := by
    intro r; cases r with
    | done u => exact h5 u
    | raised c u => exact .refl u
  exact h1.trans ((h2 _).trans ((h3 _).trans ((h4 _).trans (h6 _))))

theorem ruleOf_sameOutside (i : Instr) (s : State) : SameOutside s (endOf (ruleOf i s)) := by
  cases i with
  | update => exact (updateRule_sameControl s).1
  | startChime n =>
    simp only [ruleOf, startChimeRule]
    split
    · exact .refl s
    split
    · exact .refl s
    · exact (advance_sameControl s.nowMs { s with chimePhase := .melody, sequenceIndex := 0#32, strikeCount := _ }).1
  | startNote f d =>
    simp only [ruleOf, startNoteRule]
    split
    · exact .refl s
    rcases startNote_cases f d s with ⟨c, h⟩ | ⟨-, inc, tgt, -, h⟩ <;> rw [h]
    · exact .refl s
    · exact ⟨rfl, rfl, rfl, rfl, rfl, rfl, rfl, rfl, rfl⟩
  | begin pin => simp only [ruleOf, beginRule]; split <;> exact ⟨rfl, rfl, rfl, rfl, rfl, rfl, rfl, rfl, rfl⟩
  | setVolume p => simp only [ruleOf, setVolumeRule]; split <;> exact ⟨rfl, rfl, rfl, rfl, rfl, rfl, rfl, rfl, rfl⟩
  | stopNote => simp only [ruleOf, stopNoteRule]; split <;> exact ⟨rfl, rfl, rfl, rfl, rfl, rfl, rfl, rfl, rfl⟩
  | readReg r => simp only [ruleOf, readRegRule]; split <;> exact ⟨rfl, rfl, rfl, rfl, rfl, rfl, rfl, rfl, rfl⟩
  | isPlaying => exact ⟨rfl, rfl, rfl, rfl, rfl, rfl, rfl, rfl, rfl⟩

/-- No command's own rule writes the fault code: `finish` does, where the rule raised (60_exceptions.md R224). -/
theorem ruleOf_faultCode (i : Instr) (s : State) : (endOf (ruleOf i s)).faultCode = s.faultCode := by
  cases i with
  | update => exact (updateRule_sameControl s).2.1
  | startChime n =>
    simp only [ruleOf, startChimeRule]
    split
    · rfl
    split
    · rfl
    · exact (advance_sameControl s.nowMs { s with chimePhase := .melody, sequenceIndex := 0#32, strikeCount := _ }).2.1
  | startNote f d =>
    simp only [ruleOf, startNoteRule]
    split
    · rfl
    rcases startNote_cases f d s with ⟨c, h⟩ | ⟨-, inc, tgt, -, h⟩ <;> rw [h] <;> rfl
  | begin pin => simp only [ruleOf, beginRule]; split <;> rfl
  | setVolume p => simp only [ruleOf, setVolumeRule]; split <;> rfl
  | stopNote => simp only [ruleOf, stopNoteRule]; split <;> rfl
  | readReg r => simp only [ruleOf, readRegRule]; split <;> rfl
  | isPlaying => rfl

/-- No command writes a ROM, a parameter, the clock, or a field of the host's. -/
theorem exec_sameOutside {i : Instr} {s t : State} (h : exec i s = .next t) : SameOutside s t := by
  rcases exec_next_cases h with ⟨h, -⟩ | ⟨-, -, -, rfl⟩
  · have hr := ruleOf_sameOutside i s
    rcases finish_next_cases h with e | ⟨c, u, e, rfl⟩ <;> rw [e] at hr
    · exact hr
    · exact hr.trans ⟨rfl, rfl, rfl, rfl, rfl, rfl, rfl, rfl, rfl⟩
  · exact ⟨rfl, rfl, rfl, rfl, rfl, rfl, rfl, rfl, rfl⟩

/-- Nor does a tick. -/
theorem tick_sameControl (s : State) : SameControl s (tick s) := by
  unfold tick
  split
  · exact .refl s
  split <;> exact ⟨⟨rfl, rfl, rfl, rfl, rfl, rfl, rfl, rfl, rfl⟩, rfl, rfl, rfl, rfl, rfl⟩

end Sys2Proof.Machine
end

