-- ==== Sys2Proof/Machine/Program.lean ====
section
/-! DEFINITION. Placing a test program: its commands go to the host's queue, and its lines fix the interleaving
(30_encoding.md R90; log entries 1 and 4). -/

namespace Sys2Proof.Machine

/-- What a line gives the host to do. -/
def lineActions : Asm.Line → List HostAction
  | .command i => [.word (encode i)]
  | .blank | .ticks _ | .clock _ => []

/-- The turns a line asks for. -/
def lineTurns : Asm.Line → List Agent
  | .blank => []
  | .command _ => [.host]
  | .ticks k => List.replicate k .tick
  | .clock k => List.replicate k .clock

/-- The state with a program placed behind what the host already has. -/
def loadProgram (lines : List Asm.Line) (s : State) : State :=
  { s with
    hostQueue := s.hostQueue ++ lines.flatMap lineActions
    schedule := s.schedule ++ lines.flatMap lineTurns }

end Sys2Proof.Machine
end

