-- ==== Sys2Proof/Tests/Slice0.lean ====
section
/-! SUPPORT. Tests of one step each, with results from 30_encoding.md R92 and 95_test_vectors.md, and one witness for the
hypotheses of each statement. The configuration is the vectors' own TESTCFG: test values, not the hardware's. -/

namespace Sys2Proof.Tests

open Sys2Proof Sys2Proof.Machine

/-! ### The test configuration (95_test_vectors.md section 1) -/

def wave : Vector Byte 64 :=
  #v[
   0x00#8, 0x09#8, 0x12#8, 0x1A#8, 0x23#8, 0x2B#8, 0x33#8, 0x3A#8, 0x40#8, 0x46#8, 0x4C#8, 0x50#8, 0x54#8, 0x57#8, 0x59#8, 0x5B#8,
   0x5B#8, 0x5B#8, 0x59#8, 0x57#8, 0x54#8, 0x50#8, 0x4C#8, 0x46#8, 0x40#8, 0x3A#8, 0x33#8, 0x2B#8, 0x23#8, 0x1A#8, 0x12#8, 0x09#8,
   0x00#8, 0xF7#8, 0xEE#8, 0xE6#8, 0xDD#8, 0xD5#8, 0xCD#8, 0xC6#8, 0xC0#8, 0xBA#8, 0xB4#8, 0xB0#8, 0xAC#8, 0xA9#8, 0xA7#8, 0xA5#8,
   0xA5#8, 0xA5#8, 0xA7#8, 0xA9#8, 0xAC#8, 0xB0#8, 0xB4#8, 0xBA#8, 0xC0#8, 0xC6#8, 0xCD#8, 0xD5#8, 0xDD#8, 0xE6#8, 0xEE#8, 0xF7#8]

def measure (i : Nat) : Word :=
  if i = 16 then 0x00A503E8#32
  else if i % 4 = 0 then 0x014A0190#32
  else if i % 4 = 1 then 0x019F0190#32
  else if i % 4 = 2 then 0x01720190#32
  else 0x00F70320#32

def melody : Vector Word 17 := Vector.ofFn fun i => measure i.val

def params : Params :=
  { Config.hardware with gapPhrase := 400, quietStart := 22, quietEnd := 7, chimeWindowS := 5 }

/-- Power-on, with the open values at those of TESTCFG. -/
def powerOn : State :=
  { State.reset with
    volume := 50#8, output := 0#8, nowMs := 0#64, waveRom := wave, melodyRom := melody, params := params }

/-- After BEGIN 25. -/
def ready : State := { powerOn with begun := true, outputPin := 25#8, output := 128#8, outTrace := [128#8] }

/-- A direct note of `target` samples with `count` of them ticked. -/
def sounding (count target : Word) : State :=
  { ready with
    phaseIncrement := 32212255#32, amplitude := 12#8, sampleCount := count, sampleTarget := target, active := true }

/-- A cycle of two strikes, playing a note in a phase. -/
def playingIn (p : ChimePhase) : State :=
  { sounding 5#32 17600#32 with
    playbackState := .playingNote, chimePhase := p, sequenceIndex := 1#32, strikeIndex := 1#32, strikeCount := 2#32
    noteDurationMs := 400#32 }

/-- A cycle of two strikes, in a gap of a phase that began at `start`, `si` melody notes and `ki` strikes in. -/
def gapIn (p : ChimePhase) (si ki : Word) (start : Time) : State :=
  { ready with
    playbackState := .gap, chimePhase := p, sequenceIndex := si, strikeIndex := ki, strikeCount := 2#32
    noteStartTimeMs := start, noteDurationMs := 400#32 }

/-- A faulted block. -/
def faulted : State := { ready with faultCode := 0x05#8 }

/-- A state with turns and host actions placed. -/
def placed (turns : List Agent) (queue : List HostAction) (s : State) : State :=
  { s with schedule := turns, hostQueue := queue }

/-- The next state, if there is one. -/
def after (o : Host.Outcome State Fault Refusal) : Option State :=
  match o with
  | .next t => some t
  | .fault _ => none
  | .refused _ => none

/-- Whether a next state is answered that passes a check. -/
def passes (o : Host.Outcome State Fault Refusal) (check : State → Bool) : Bool := (after o).any check

/-- A passed check names the next state. -/
theorem exists_next {o : Host.Outcome State Fault Refusal} {check : State → Bool} (h : passes o check = true) :
    ∃ t, o = .next t ∧ check t = true := by
  cases o with
  | next t => exact ⟨t, rfl, h⟩
  | fault r => cases h
  | refused r => cases h

/-! ### Words: every constructor decodes from the word 30_encoding.md R92 writes out -/

theorem test_decode_begin : decode 0x0100000019#40 = .ok (.begin 25#8) := by decide
theorem test_decode_setVolume : decode 0x020000000A#40 = .ok (.setVolume 10#8) := by decide
theorem test_decode_startNote : decode 0x03014A0258#40 = .ok (.startNote 330#16 600#16) := by decide
theorem test_decode_stopNote : decode 0x0400000000#40 = .ok .stopNote := by decide
theorem test_decode_update : decode 0x0500000000#40 = .ok .update := by decide
theorem test_decode_startChime : decode 0x0600000003#40 = .ok (.startChime 3#8) := by decide
theorem test_decode_readReg : decode 0x0700000008#40 = .ok (.readReg 8#8) := by decide
theorem test_decode_isPlaying : decode 0x0800000000#40 = .ok .isPlaying := by decide
/-- Bit by bit (R80, R83): opcode 3, frequency 330, duration 600. -/
theorem test_decode_startNote_bits :
    decode (0b00000011#8 ++ 0b0000000101001010#16 ++ 0b0000001001011000#16) = .ok (.startNote 330#16 600#16) := by
  decide
theorem test_encode_startNote : encode (.startNote 43999#16 1#16) = 0x03ABDF0001#40 := by decide
/-- The opcode table's numbering of the same word. -/
theorem test_tableWord : decodeTableWord 40 0x0600000003 = some (.startChime 3#8) := by decide

/-- The first command after power-on, placed as the opcode table numbers it. -/
theorem test_withFetchWord : (after (step (State.reset.withFetchWord 40 0x0100000019))).map
    (fun t => (t.begun, t.outputPin, t.output, t.hostQueue, t.schedule)) = some (true, 25#8, 128#8, [], []) := by decide

/-! ### WellFormed refuses an ill-formed term for each check -/

theorem test_illegal_opcode_low : opcodeLegal 0x0000000000#40 = false := by decide
theorem test_illegal_opcode_high : opcodeLegal 0xFFFFFFFFFF#40 = false := by decide
theorem test_zero_payload : zeroPayloadLegal 0x0400000001#40 = false := by decide
theorem test_byte_payload : bytePayloadLegal 0x0200000100#40 = false := by decide
theorem test_word_illegal : wordWellFormed 0x0900000000#40 = false := by decide
theorem test_word_reserved : wordWellFormed 0x0500000001#40 = false := by decide
theorem test_word_legal : wordWellFormed 0x03ABDF0001#40 = true := by decide
theorem test_fitsByte : fitsByte 256 = false := by decide
theorem test_fitsHalf : fitsHalf 65536 = false := by decide
/-- A percent that does not fit IMM8 makes no line (R82, R89). -/
theorem test_line_too_wide : Asm.parseLine "SET_VOLUME 256" = none := by decide
theorem test_line_startNote :
    Asm.parseLine "START_NOTE 330, 600 ; E1" = some (.command (.startNote 330#16 600#16)) := by decide
theorem test_line_pseudo : Asm.parseLine "PLAY_DEBUG_CHIME 3" = some (.command (.startChime 3#8)) := by decide

/-! ### One step of each command (95_test_vectors.md V5 to V7) -/

/-- V7.24: STATUS after BEGIN 25. -/
theorem test_begin : passes (exec (.begin 25#8) powerOn)
    (fun t => t.output == 128#8 && t.outTrace == [128#8] && statusWord t == 0x00190001#32) = true := by decide
/-- V7.15. -/
theorem test_begin_twice : passes (exec (.begin 25#8) ready) (fun t => t.faultCode == 0x04#8) = true := by decide
/-- V5.5: the sounding note keeps its amplitude. -/
theorem test_setVolume : passes (exec (.setVolume 100#8) (sounding 0#32 26400#32))
    (fun t => t.volume == 100#8 && t.amplitude == 12#8) = true := by decide
/-- V7.6. -/
theorem test_setVolume_range : passes (exec (.setVolume 101#8) powerOn)
    (fun t => t.volume == 50#8 && t.faultCode == 0x09#8) = true := by decide
/-- V5.1. -/
theorem test_startNote : passes (exec (.startNote 330#16 600#16) { ready with volume := 10#8, phaseAccumulator := 7#32 })
    (fun t => t.phaseIncrement == 32212255#32 && t.amplitude == 12#8 && t.sampleTarget == 26400#32 && t.active
      && t.phaseAccumulator == 7#32) = true := by decide
/-- V7.19: the overlap guard comes before the operand checks. -/
theorem test_startNote_overlap : passes (exec (.startNote 0#16 600#16) (sounding 0#32 44#32))
    (fun t => t.faultCode == 0x05#8 && t.sampleTarget == 44#32) = true := by decide
/-- V5.4: `completedFlag` stays. -/
theorem test_stopNote : passes (exec .stopNote { ready with completedFlag := true, phaseAccumulator := 12345#32 })
    (fun t => t.phaseAccumulator == 0#32 && t.completedFlag && t.outTrace == [128#8, 128#8]) = true := by decide
/-- V5.9. -/
theorem test_stopNote_sequencing : passes (exec .stopNote (gapIn .melody 1#32 0#32 0#64))
    (fun t => t.faultCode == 0x0B#8) = true := by decide
/-- V6.2: the gap after note 3 is the phrase gap, and melody note 4 starts. -/
theorem test_update : passes (exec .update { gapIn .melody 4#32 0#32 2240#64 with nowMs := 2640#64 })
    (fun t => t.sequenceIndex == 5#32 && t.noteStartTimeMs == 2640#64 && t.noteDurationMs == 400#32
      && t.sampleTarget == 17600#32 && t.phaseIncrement == 32212255#32) = true := by decide
/-- V6.13: the repair branch and the cycle end, two neutral writes. -/
theorem test_update_repair : passes (exec .update { sounding 0#32 44#32 with noteDurationMs := 10#32, nowMs := 11#64 })
    (fun t => t.outTrace == [128#8, 128#8, 128#8] && t.noteStartTimeMs == 11#64 && t.playbackState == .idle) = true := by
  decide
/-- V6.16. -/
theorem test_startChime : passes (exec (.startChime 3#8) { ready with nowMs := 1000#64 })
    (fun t => t.sequenceIndex == 1#32 && t.strikeCount == 3#32 && t.noteStartTimeMs == 1000#64 && t.amplitude == 63#8
      && seqState t == 0x11#32) = true := by decide
/-- V7.16. -/
theorem test_startChime_range : passes (exec (.startChime 13#8) ready) (fun t => t.faultCode == 0x0A#8) = true := by
  decide
/-- V7.24: the high half of the stamp. -/
theorem test_readReg : passes (exec (.readReg 0x0D#8) { ready with noteStartTimeMs := 4294967301#64 })
    (fun t => t.resp == 1#32) = true := by decide
/-- V7.14. -/
theorem test_readReg_bad : passes (exec (.readReg 0x10#8) ready) (fun t => t.faultCode == 0x0C#8) = true := by decide
/-- V7.21: legal in a faulted block. -/
theorem test_isPlaying : passes (exec .isPlaying { playingIn .melody with faultCode := 0x05#8 })
    (fun t => t.resp == 1#32 && t.faultCode == 0x05#8) = true := by decide
/-- V7.9: the reserved bits are checked before BEGIN is asked for. -/
theorem test_reserved_before_begin : passes (runWord 0x0600000100#40 powerOn) (fun t => t.faultCode == 0x02#8) = true := by
  decide

/-! ### The tick, the clock and the trigger (V2, V3, V4, V8) -/

/-- V4.7: index 63, sample -9. -/
theorem test_tick_tone : (tick { sounding 0#32 44#32 with phaseIncrement := 4294869683#32, amplitude := 63#8 }).outTrace =
    [128#8, 120#8] := by decide
/-- V4.3: the stop tick leaves the phase. -/
theorem test_tick_stop : let t := tick { sounding 26399#32 26400#32 with phaseAccumulator := 4262762433#32 }
    (t.active, t.completedFlag, t.phaseAccumulator, t.outTrace) = (false, true, 4262762433#32, [128#8, 128#8]) := by
  decide
/-- V2.12: the two roundings differ. -/
theorem test_scale : (scale params 0xA5#8 90#8, scale { params with scaleDiv := .floor } 0xA5#8 90#8) = (1#8, 0#8) := by
  decide
/-- V3. -/
theorem test_tableIndex : (tableIndex 0x03FFFFFF#32, tableIndex 0x04000000#32, tableIndex 0xFFFFFFFF#32) =
    (0#6, 1#6, 63#6) := by decide
/-- 60_exceptions.md R231: the clock wraps at 2^64. -/
theorem test_clock : passes (clockTurn { powerOn with nowMs := 0xFFFFFFFFFFFFFFFF#64 })
    (fun t => t.nowMs == 0#64 && t.runMs == 1) = true := by decide
/-- 70_reset_and_hazards.md R263: a run ends at its first ended state, two scheduled turns before its schedule does, and its
responses are in order. -/
theorem test_observeRun :
    (observeRun 9 (placed [.host, .host, .clock, .clock] [.word 0x0100000019#40, .word 0x0800000000#40] powerOn)).map
      (fun r => (r.1.nowMs, r.1.schedule, r.1.outTrace, r.2)) = some (0#64, [.clock, .clock], [128#8], [0#32]) := by
  decide
/-- R263: a run with a note still active is not ended. -/
theorem test_observeRun_active : observeRun 1 (placed [.tick] [] (sounding 0#32 44#32)) = none := by decide
/-- V8.1. -/
theorem test_strikes : [0, 1, 11, 12, 13, 15, 23].map strikesFor = [12, 1, 11, 12, 1, 3, 11] := by decide
/-- V8.2: 22 is quiet, 7 is not. -/
theorem test_quiet : (inQuiet params 22, inQuiet params 6, inQuiet params 7, inQuiet params 21) =
    (true, true, false, false) := by decide

/-! ### Witnesses: states and operands that meet the hypotheses of each statement, clause by clause -/

theorem witness_WordThatIsNoCommandFaults :
    let s := placed [.host] [.word 0x0900000000#40] powerOn
    let r := placed [.host] [.word 0x0500000001#40] ready
    (s.schedule = [.host] ∧ s.hostQueue = [.word 0x0900000000#40] ∧ s.faultCode = 0#8 ∧
      opcodeLegal 0x0900000000#40 = false) ∧
    (r.schedule = [.host] ∧ r.hostQueue = [.word 0x0500000001#40] ∧ r.faultCode = 0#8 ∧
      opcodeLegal 0x0500000001#40 = true ∧ wordWellFormed 0x0500000001#40 = false) := by decide

theorem witness_WorkedEncodingsDecode : powerOn.faultCode = 0#8 := by decide

theorem witness_HostTurnRunsTheDecodedCommand :
    let s := placed [.host] [.word 0x0500000000#40] ready
    let f := placed [.host] [.word 0x070000000F#40] faulted
    (s.schedule = [.host] ∧ s.hostQueue = [.word 0x0500000000#40] ∧ decode 0x0500000000#40 = .ok .update ∧
      s.faultCode = 0#8) ∧
    (f.schedule = [.host] ∧ f.hostQueue = [.word 0x070000000F#40] ∧ decode 0x070000000F#40 = .ok (.readReg 0x0F#8) ∧
      (0x0F#8).toNat ≤ 0x0F ∧ f.faultCode ≠ 0#8) := by decide

theorem witness_EveryStepIsOneAgentTurn :
    (placed [.tick] [] ready).schedule = [.tick] ∧ ready.schedule = [] := by decide

theorem witness_StuckHostLeavesTheBlockAlone :
    let s := placed [.host] [.word 0x0700000010#40] faulted
    s.schedule = [.host] ∧ s.hostQueue = [.word 0x0700000010#40] ∧ s.faultCode ≠ 0#8 ∧
    ¬((0x0700000010#40).toNat / 2 ^ 32 = 0x07 ∧ (0x0700000010#40).toNat % 2 ^ 32 ≤ 0x0F) ∧
    ¬((0x0700000010#40).toNat = 0x08 * 2 ^ 32) := by decide

theorem witness_TickNeedsABegunFaultFreeBlock :
    let s := placed [.tick] [] powerOn
    let f := placed [.tick] [] faulted
    (s.schedule = [.tick] ∧ s.begun = false) ∧ (f.schedule = [.tick] ∧ f.faultCode ≠ 0#8) := by decide

theorem witness_OnlyTheClockMovesTheTime :
    (let s := placed [.clock] [] powerOn; s.schedule = [.clock] ∧ s.runMs + 1 < 2 ^ 64) ∧
    ∃ t, exec .update (gapIn .melody 1#32 0#32 0#64) = .next t :=
  ⟨by decide, (exists_next (check := fun _ => true) (by decide)).imp fun _ h => h.1⟩

theorem witness_TickFollowsItsRule :
    (let s := placed [.tick] [] ready; s.schedule = [.tick] ∧ running s ∧ s.active = false) ∧
    (let s := placed [.tick] [] (sounding 43#32 44#32);
      s.schedule = [.tick] ∧ running s ∧ s.active = true ∧ s.sampleTarget.toNat ≤ (s.sampleCount + 1#32).toNat) ∧
    (let s := placed [.tick] [] (sounding 42#32 44#32);
      s.schedule = [.tick] ∧ running s ∧ s.active = true ∧ (s.sampleCount + 1#32).toNat < s.sampleTarget.toNat) := by
  decide

theorem witness_ScalerClampsAndNeverWraps :
    (params.outMin.toNat ≤ params.outMax.toNat ∧ params.scaleDiv = .trunc ∧ params.neutral = 128#8 ∧
      params.outMin = 0#8 ∧ params.outMax = 255#8) ∧
    (let P := { params with scaleDiv := .floor }; P.outMin.toNat ≤ P.outMax.toNat ∧ P.scaleDiv = .floor) ∧
    (-91 ≤ (0xA5#8).toInt ∧ (0xA5#8).toInt ≤ 91 ∧ (64#8).toNat ≤ 64) ∧
    ((91#8).toInt = 91 ∧ 91 ≤ (91#8).toNat) := by decide

theorem witness_NoteEndsAfterExactlyItsTarget :
    (let s := sounding 0#32 1#32; s.active = true ∧ s.sampleCount = 0#32 ∧ 0 < s.sampleTarget.toNat) ∧
    (let s := sounding 0#32 44#32; s.active = true ∧ s.sampleCount = 0#32 ∧ 43 < s.sampleTarget.toNat) := by decide

/-- TICK alone, again and again, on a sounding note. -/
theorem witness_EveryNoteEndsIfTicksGoOn :
    let state := fun n => Nat.iterate tick n (sounding 0#32 44#32)
    IsRun state (fun _ => .tick) (fun _ => []) ∧
    (∀ n, running (state n) ∧ gapsInRange (state n).params) ∧ (∀ n : Nat, ∃ m, n ≤ m ∧ Agent.tick = .tick) ∧
    (state 0).active = true := by
  have keep : ∀ n, SameControl (sounding 0#32 44#32) (Nat.iterate tick n (sounding 0#32 44#32)) := by
    intro n
    induction n with
    | zero => exact .refl _
    | succ n ih => rw [Function.iterate_succ_apply']; exact ih.trans (tick_sameControl _)
  have run : ∀ n, running (Nat.iterate tick n (sounding 0#32 44#32)) := fun n => ⟨(keep n).2.1, (keep n).2.2.1⟩
  refine ⟨fun n => ?_, fun n => ⟨run n, ?_⟩, fun n => ⟨n, le_rfl, rfl⟩, by decide⟩
  · have hq : (Nat.iterate tick n (sounding 0#32 44#32)).hostQueue = [] := (keep n).1.2.2.2.2.2.1
    have he : tickEnabled (Nat.iterate tick n (sounding 0#32 44#32)) = true := by
      simp [tickEnabled, (run n).1, (run n).2]
    simp only [Function.iterate_succ_apply']
    rw [← hq, agentTurn_tick, tickTurn, if_pos he]
  · rw [(keep n).1.2.2.1]; decide

theorem witness_NoteParametersAreRoundedHalfUp : 0 < params.sampleRate ∧ params.sampleRate = 44000 := by decide

theorem witness_SetVolumeWritesOnlyTheVolume :
    powerOn.faultCode = 0#8 ∧ (100#8).toNat ≤ 100 ∧ 100 < (101#8).toNat := by decide

theorem witness_StartNoteSoundsTheNote :
    running ready ∧ ready.playbackState = .idle ∧ ready.active = false ∧ ready.params.sampleRate = 44000 ∧
    0 < (43999#16).toNat ∧ (43999#16).toNat < 44000 ∧ 0 < (1#16).toNat := by decide

theorem witness_StartNoteReportsTheFirstFault :
    (running ready ∧ ready.params.sampleRate = 44000 ∧ ready.playbackState = .idle ∧ ready.active = false) ∧
    (running (playingIn .melody) ∧ (playingIn .melody).playbackState ≠ .idle) ∧
    (running (sounding 0#32 44#32) ∧ (sounding 0#32 44#32).playbackState = .idle ∧ (sounding 0#32 44#32).active = true) ∧
    ((0#16).toNat = 0 ∧ 44000 ≤ (44000#16).toNat ∧ (43999#16).toNat < 44000 ∧ 0 < (1#16).toNat) := by decide

theorem witness_StopNoteSilencesAtOnce :
    (ready.faultCode = 0#8 ∧ ready.begun = true ∧ ready.playbackState = .idle) ∧
    (let s := playingIn .strikes; s.faultCode = 0#8 ∧ s.begun = true ∧ s.playbackState ≠ .idle) ∧
    (powerOn.faultCode = 0#8 ∧ powerOn.begun = false) := by decide

theorem witness_AmplitudeIsLatchedAtNoteStart :
    ∃ t, step (placed [.host] [.word 0x03014A0258#40] ready) = .next t ∧ t.amplitude ≠ ready.amplitude :=
  (exists_next (check := fun t => t.amplitude != ready.amplitude) (by decide)).imp fun _ h => ⟨h.1, by simpa using h.2⟩

theorem witness_GapLengthFollowsTheTable :
    (let s := gapIn .melody 1#32 0#32 0#64; s.chimePhase = .melody ∧ (0 : Int) = s.sequenceIndex.toNat - 1 ∧ gapLength s = 80) ∧
    (let s := gapIn .melody 12#32 0#32 0#64; s.chimePhase = .melody ∧ (11 : Int) = s.sequenceIndex.toNat - 1 ∧ gapLength s = 400) ∧
    (gapIn .pauseBeforeStrikes 16#32 0#32 0#64).chimePhase = .pauseBeforeStrikes ∧
    (gapIn .strikes 16#32 1#32 0#64).chimePhase = .strikes ∧ ready.chimePhase = .none ∧
    (gapIn .complete 16#32 2#32 0#64).chimePhase = .complete := by decide

theorem witness_StartChimeStartsTheFirstNote :
    running ready ∧ ready.playbackState = .idle ∧ ready.active = false ∧ 1 ≤ (12#8).toNat ∧ (12#8).toNat ≤ 12 ∧
    entryParams ready (ready.melodyRom.get 0) 32212255#32 17600#32 := by decide

theorem witness_StartChimeWhilePlayingChangesNothing :
    let s := playingIn .melody
    running s ∧ s.playbackState ≠ .idle ∧ 1 ≤ (1#8).toNat ∧ (1#8).toNat ≤ 12 := by decide

theorem witness_StartChimeFaultsAndWhatTheyLeave :
    (running ready ∧ (0#8).toNat < 1 ∧ 12 < (13#8).toNat) ∧
    (let s := sounding 0#32 44#32;
      running s ∧ 1 ≤ (1#8).toNat ∧ (12#8).toNat ≤ 12 ∧ s.playbackState = .idle ∧ s.active = true) ∧
    (let s := { ready with params := { params with sampleRate := 1 } };
      running s ∧ s.playbackState = .idle ∧ s.active = false ∧
      noteParams s.params (entryFrequency (s.melodyRom.get 0)) (entryDuration (s.melodyRom.get 0)) =
        .error .incrementOverflow) := by decide

theorem witness_UpdateWhileANotePlays :
    (let s := { playingIn .melody with active := false, completedFlag := true };
      running s ∧ gapsInRange s.params ∧ s.playbackState = .playingNote ∧ s.chimePhase = .melody ∧
      s.completedFlag = true) ∧
    (let s := { playingIn .strikes with nowMs := 400#64 };
      running s ∧ gapsInRange s.params ∧ s.playbackState = .playingNote ∧ s.chimePhase = .strikes ∧
      s.completedFlag = false ∧ s.noteDurationMs.toNat ≤ elapsed s.nowMs s) ∧
    (let s := { playingIn .melody with nowMs := 399#64 };
      s.completedFlag = false ∧ elapsed s.nowMs s < s.noteDurationMs.toNat) := by decide

theorem witness_UpdateInAGap :
    (let s := { gapIn .melody 4#32 0#32 2240#64 with nowMs := 2639#64 };
      running s ∧ s.playbackState = .gap ∧ s.active = false ∧ s.completedFlag = false ∧
      elapsed s.nowMs s < gapLength s) ∧
    (let s := { gapIn .melody 15#32 0#32 0#64 with nowMs := 80#64 };
      running s ∧ gapLength s ≤ elapsed s.nowMs s ∧ s.sequenceIndex.toNat = 15 ∧
      entryParams s (s.melodyRom.get 15) 24110385#32 35200#32) ∧
    (let s := { gapIn .melody 16#32 0#32 0#64 with nowMs := 80#64 };
      running s ∧ gapLength s ≤ elapsed s.nowMs s ∧ s.sequenceIndex.toNat = 16) ∧
    (let s := { gapIn .pauseBeforeStrikes 16#32 0#32 0#64 with nowMs := 1500#64 };
      running s ∧ s.params.gapPause ≤ elapsed s.nowMs s ∧ entryParams s (s.melodyRom.get 16) 16106127#32 44000#32) ∧
    (let s := { gapIn .strikes 16#32 1#32 0#64 with nowMs := 1000#64 };
      running s ∧ s.params.gapStrike ≤ elapsed s.nowMs s ∧ s.strikeIndex.toNat < s.strikeCount.toNat ∧
      entryParams s (s.melodyRom.get 16) 16106127#32 44000#32) ∧
    (let s := { gapIn .strikes 16#32 2#32 0#64 with nowMs := 1000#64 };
      running s ∧ s.params.gapStrike ≤ elapsed s.nowMs s ∧ s.strikeIndex = s.strikeCount) := by decide

theorem witness_UpdateAtRest :
    (let s := { ready with completedFlag := true };
      running s ∧ s.playbackState = .idle ∧ s.chimePhase = .none ∧ s.completedFlag = true) ∧
    (let s := { sounding 5#32 44#32 with noteDurationMs := 10#32, nowMs := 11#64 };
      running s ∧ s.playbackState = .idle ∧ s.chimePhase = .none ∧ s.completedFlag = false ∧ s.active = true ∧
      s.noteDurationMs.toNat < elapsed s.nowMs s) ∧
    (let s := { sounding 5#32 44#32 with noteDurationMs := 10#32, nowMs := 10#64 };
      running s ∧ s.completedFlag = false ∧ elapsed s.nowMs s ≤ s.noteDurationMs.toNat) ∧
    (ready.completedFlag = false ∧ ready.active = false) := by decide

/-- A step of HOST with one command word queued, from a state to a phase, without a fault. -/
def movesTo (w : CommandWord) (s : State) (p : ChimePhase) : Bool :=
  passes (step (placed [.host] [.word w] s)) fun t => t.faultCode == 0#8 && t.chimePhase == p

theorem witness_PhaseAxisOnlyMovesForward :
    (healthy ready ∧ movesTo 0x0600000003#40 ready .melody = true) ∧
    (let s := { gapIn .melody 16#32 0#32 0#64 with nowMs := 80#64 };
      s.faultCode = 0#8 ∧ healthy s ∧ movesTo 0x0500000000#40 s .pauseBeforeStrikes = true) ∧
    (let s := { gapIn .pauseBeforeStrikes 16#32 0#32 0#64 with nowMs := 1500#64 };
      s.faultCode = 0#8 ∧ healthy s ∧ movesTo 0x0500000000#40 s .strikes = true) ∧
    (let s := { gapIn .strikes 16#32 2#32 0#64 with nowMs := 1000#64 };
      s.faultCode = 0#8 ∧ healthy s ∧ movesTo 0x0500000000#40 s .none = true) :=
  ⟨⟨by decide, by decide⟩, ⟨by decide, by decide, by decide⟩, ⟨by decide, by decide, by decide⟩,
    ⟨by decide, by decide, by decide⟩⟩

theorem witness_UpdateOfAHealthyBlockNeverFaults :
    let s := { gapIn .melody 15#32 0#32 0#64 with nowMs := 80#64 }
    running s ∧ healthy s ∧ playable s := by decide

theorem witness_SequencerFieldsHaveTwoWriters :
    ∃ t, exec (.startNote 330#16 600#16) ready = .next t :=
  (exists_next (check := fun _ => true) (by decide)).imp fun _ h => h.1

/-- The next move of a cycle, made at the moment it is due. -/
def move (s : State) : State :=
  match exec .update { s with nowMs := s.noteStartTimeMs + BitVec.ofNat 64 (dueMs s) } with
  | .next t => t
  | .fault _ => s
  | .refused _ => s

/-- The moves after START_CHIME `n`, each made when it is due. -/
def cycle (n : Byte) (k : Nat) : State :=
  Nat.iterate move k (match exec (.startChime n) ready with
    | .next t => t
    | .fault _ => ready
    | .refused _ => ready)

/-- Whether move `k` can be made when it is due. -/
def moveOk (n : Byte) (k : Nat) : Bool :=
  let s := cycle n k
  let now := s.noteStartTimeMs + BitVec.ofNat 64 (dueMs s)
  dueMs s ≤ elapsed now s && (after (exec .update { s with nowMs := now })).isSome

theorem cyclePoll_of_moveOk {n : Byte} {k : Nat} (h : moveOk n k = true) : CyclePoll (cycle n k) (cycle n (k + 1)) := by
  simp only [moveOk, Bool.and_eq_true, decide_eq_true_eq] at h
  refine ⟨0, _, .inl h.1, ?_⟩
  have e : cycle n (k + 1) = move (cycle n k) := Function.iterate_succ_apply' _ _ _
  rw [e, move]
  cases hx : exec .update { cycle n k with
      nowMs := (cycle n k).noteStartTimeMs + BitVec.ofNat 64 (dueMs (cycle n k)) } with
  | next t => exact hx
  | fault r => rw [hx] at h; exact absurd h.2 (by simp [after])
  | refused r => rw [hx] at h; exact absurd h.2 (by simp [after])

theorem moves_ok_1 : ∀ k < 35, moveOk 1#8 k = true := by decide +kernel

theorem moves_ok_12 : ∀ k < 57, moveOk 12#8 k = true := by decide +kernel

/-- A note of a cycle one tick before its failsafe, at the moment it began. -/
def lastTick : State := { playingIn .melody with sampleCount := 17599#32, active := true }

/-- The failsafe ends the note, and the next poll moves on, though its time has not passed (70_reset_and_hazards.md R261). -/
theorem test_failsafe_poll : (∃ t, CyclePoll lastTick t) ∧ ¬dueMs lastTick ≤ elapsed 0#64 lastTick := by
  obtain ⟨t, h, -⟩ := exists_next (o := updateAfter 1 0#64 lastTick) (check := fun _ => true) (by decide)
  exact ⟨⟨t, 1, 0#64, .inr (by decide), h⟩, by decide⟩

theorem witness_ChimeCyclePlaysEveryNoteAndStrike :
    running ready ∧ ready.playbackState = .idle ∧ ready.active = false ∧ gapsInRange ready.params ∧ playable ready ∧
    (∀ n : Byte, n = 1#8 ∨ n = 12#8 → exec (.startChime n) ready = .next (cycle n 0) ∧
      ∀ k, k < 33 + 2 * n.toNat → CyclePoll (cycle n k) (cycle n (k + 1))) := by
  refine ⟨by decide, by decide, by decide, by decide, by decide, ?_⟩
  rintro n (rfl | rfl)
  · obtain ⟨t, h, -⟩ := exists_next (o := exec (.startChime 1#8) ready) (check := fun _ => true) (by decide)
    exact ⟨by simp only [cycle, h, Function.iterate_zero, id_eq], fun k hk => cyclePoll_of_moveOk (moves_ok_1 k hk)⟩
  · obtain ⟨t, h, -⟩ := exists_next (o := exec (.startChime 12#8) ready) (check := fun _ => true) (by decide)
    exact ⟨by simp only [cycle, h, Function.iterate_zero, id_eq], fun k hk => cyclePoll_of_moveOk (moves_ok_12 k hk)⟩

theorem witness_ACycleCanAlwaysMoveOn :
    (let s := gapIn .strikes 16#32 2#32 0#64;
      running s ∧ healthy s ∧ playable s ∧ gapsInRange s.params ∧ s.playbackState ≠ .idle ∧
      moveDue 0 1000#64 s ∧ ¬moveDue 0 999#64 s) ∧
    (running lastTick ∧ healthy lastTick ∧ playable lastTick ∧ gapsInRange lastTick.params ∧
      lastTick.playbackState ≠ .idle ∧ moveDue 1 0#64 lastTick ∧ ¬moveDue 0 0#64 lastTick) := ⟨by decide, by decide⟩

theorem witness_BeginStartsTheBlockOnce :
    (powerOn.faultCode = 0#8 ∧ powerOn.begun = false) ∧ (ready.faultCode = 0#8 ∧ ready.begun = true) := by decide

theorem witness_ReadRegReturnsTheRegister :
    (let s := { ready with amplitude := 127#8, volume := 100#8 }; s.amplitude.toNat ≤ 127 ∧ s.volume.toNat ≤ 100) ∧
    (0x0F#8).toNat ≤ 0x0F ∧ 0x10 ≤ (0x10#8).toNat ∧ powerOn.faultCode = 0#8 := by decide

theorem witness_CommandsBeforeBeginFault : powerOn.faultCode = 0#8 ∧ powerOn.begun = false := by decide

theorem witness_OnlyAFaultedBlockTurnsCommandsAway :
    (faulted.faultCode ≠ 0#8 ∧ Instr.update ≠ .isPlaying ∧ (∀ r : Byte, Instr.update ≠ .readReg r)) ∧
    ∃ t, exec .update ready = .next t :=
  ⟨⟨by decide, by decide, fun _ => by simp⟩, (exists_next (check := fun _ => true) (by decide)).imp fun _ h => h.1⟩

theorem witness_BeginIsNeverUndone :
    ready.begun = true ∧ ∃ t, step (placed [.host] [.word 0x0400000000#40] ready) = .next t :=
  ⟨by decide, (exists_next (check := fun _ => true) (by decide)).imp fun _ h => h.1⟩

theorem witness_OutputPinHasNoEffect :
    (∀ p, Instr.isPlaying ≠ .begin p) ∧ (∀ r, Instr.isPlaying ≠ .readReg r) ∧ ∃ t, exec .isPlaying ready = .next t :=
  ⟨fun _ => by simp, fun _ => by simp, (exists_next (check := fun _ => true) (by decide)).imp fun _ h => h.1⟩

theorem witness_AFaultFreezesTheBlock :
    faulted.faultCode ≠ 0#8 ∧ ∃ t, step (placed [.host] [.word 0x070000000F#40] faulted) = .next t ∧ t.resp ≠ faulted.resp :=
  ⟨by decide, (exists_next (check := fun t => t.resp != faulted.resp) (by decide)).imp fun _ h => ⟨h.1, by simpa using h.2⟩⟩

theorem witness_FaultCodeStaysNamed :
    ready.faultCode.toNat ≤ 0x0C ∧
    ∃ t, step (placed [.host] [.word 0x0700000010#40] ready) = .next t ∧ t.faultCode = 0x0C#8 :=
  ⟨by decide, (exists_next (check := fun t => t.faultCode == 0x0C#8) (by decide)).imp fun _ h => ⟨h.1, by simpa using h.2⟩⟩

theorem witness_EveryStepKeepsTheInvariant :
    Inv ready ∧ ∃ t, step (placed [.host] [.word 0x060000000C#40] ready) = .next t ∧ t.faultCode = 0#8 :=
  ⟨by decide, (exists_next (check := fun t => t.faultCode == 0#8) (by decide)).imp fun _ h => ⟨h.1, by simpa using h.2⟩⟩

theorem witness_StrikeIndexNeverExceedsStrikeCount :
    let s := placed [.host] [.word 0x060000000C#40] { ready with strikeIndex := 12#32, strikeCount := 12#32 }
    s.faultCode = 0#8 ∧ healthy s ∧ strikesWithinCount s ∧ ∃ t, step s = .next t ∧ t.faultCode = 0#8 :=
  ⟨by decide, by decide, by decide,
    (exists_next (check := fun t => t.faultCode == 0#8) (by decide)).imp fun _ h => ⟨h.1, by simpa using h.2⟩⟩

theorem witness_RomsAndParametersAreNeverWritten :
    ∃ t, step (placed [.tick] [] (sounding 0#32 44#32)) = .next t :=
  (exists_next (check := fun _ => true) (by decide)).imp fun _ h => h.1

theorem witness_OutputIsAlwaysTheNewestWrite :
    outputIsNewest ready ∧ (∃ t, step (placed [.tick] [] (sounding 0#32 44#32)) = .next t) ∧
    ∃ t, step (placed [.tick] [] ready) = .next t ∧ t.outTrace = ready.outTrace :=
  ⟨by decide, (exists_next (check := fun _ => true) (by decide)).imp fun _ h => h.1,
    (exists_next (check := fun t => t.outTrace == ready.outTrace) (by decide)).imp fun _ h => ⟨h.1, by simpa using h.2⟩⟩

theorem witness_ADueChimeReachesStartChime :
    let s := placed [.host, .host, .host, .host] [.maybeChime 15 0 4] ready
    running s ∧ s.playbackState = .idle ∧ s.active = false ∧ 4 < s.params.chimeWindowS ∧ s.lastChimedHour ≠ some 15 ∧
    inQuiet s.params 15 = false ∧ entryParams s (s.melodyRom.get 0) 32212255#32 17600#32 ∧
    s.hostQueue = [.maybeChime 15 0 4] ∧ s.schedule = [.host, .host, .host, .host] := by decide

theorem witness_ACallThatIsNotDueDoesNothing :
    (let s := placed [.host] [.maybeChime 16 1 0] ready;
      s.schedule = [.host] ∧ s.hostQueue = [.maybeChime 16 1 0] ∧ (1 : Nat) ≠ 0) ∧
    (ready.params.chimeWindowS ≤ 5) ∧ ({ ready with lastChimedHour := some 15 }.lastChimedHour = some 15) ∧
    (let P := { params with quietStart := 1, quietEnd := 5 }; P.quietStart ≤ 1 ∧ 1 < P.quietEnd) ∧
    (params.quietEnd < params.quietStart ∧ params.quietStart ≤ 22 ∧ 6 < params.quietEnd) := by decide

theorem witness_OnlyAFireRecordsItsHour :
    (let s := placed [.host] [.chimeIfIdle 15] ready;
      ∃ t, step s = .next t ∧ t.lastChimedHour ≠ s.lastChimedHour) ∧
    (let s := placed [.host] [.chimeIfIdle 15] { playingIn .melody with resp := 1#32 };
      s.schedule = [.host] ∧ s.hostQueue = [.chimeIfIdle 15] ∧ s.resp = 1#32) :=
  ⟨(exists_next (check := fun t => t.lastChimedHour != ready.lastChimedHour) (by decide)).imp
    fun _ h => ⟨h.1, bne_iff_ne.1 h.2⟩, by decide⟩

theorem witness_WallClockOutOfRangeIsRefused :
    let s := placed [.host] [.maybeChime 24 0 0] ready
    s.schedule = [.host] ∧ s.hostQueue = [.maybeChime 24 0 0] ∧ ¬(24 ≤ 23 ∧ 0 ≤ 59 ∧ 0 ≤ 59) := by decide

theorem witness_TriggerQueueStaysOrderly :
    (let s := placed [.host] [.maybeChime 15 0 0, .maybeChime 15 0 1] ready;
      triggerOrderly s ∧ ∃ t, step s = .next t ∧
        t.hostQueue = [.word 0x0800000000#40, .chimeIfIdle 15, .maybeChime 15 0 1]) ∧
    triggerOrderly (placed [.host] [.chimeIfIdle 15] ready) := by
  refine ⟨⟨triggerOrderly_of_noHalfCall (by simp [noHalfCall, placed]), ?_⟩, by simp [triggerOrderly, noHalfCall, placed, ready, powerOn, State.reset]⟩
  obtain ⟨t, h, hq⟩ := exists_next (o := step (placed [.host] [.maybeChime 15 0 0, .maybeChime 15 0 1] ready))
    (check := fun t => t.hostQueue == [.word 0x0800000000#40, .chimeIfIdle 15, .maybeChime 15 0 1]) (by decide)
  exact ⟨t, h, by simpa using hq⟩

/-- The states of a run of the machine, as long as it answers next states. -/
def runFrom (s : State) : Nat → State
  | 0 => s
  | n + 1 => (after (step (runFrom s n))).getD (runFrom s n)

theorem step_runFrom {s : State} {n : Nat} (h : (after (step (runFrom s n))).isSome = true) :
    step (runFrom s n) = .next (runFrom s (n + 1)) := by
  cases hx : step (runFrom s n) with
  | next t => simp [runFrom, hx, after]
  | fault r => rw [hx] at h; cases h
  | refused r => rw [hx] at h; cases h

/-- The fire of hour 15 gives a START_CHIME that a last gap turns away; an UPDATE ends that cycle; hour 16 fires, and its
START_CHIME faults on the first note (no sample rate of 1 Hz can play it); then hour 15 fires again. -/
def threeFires : State :=
  placed (List.replicate 10 .host)
    [.chimeIfIdle 15, .word 0x0500000000#40, .maybeChime 16 0 0, .maybeChime 15 0 0]
    { gapIn .strikes 16#32 2#32 0#64 with nowMs := 1000#64, params := { params with sampleRate := 1 } }

theorem threeFires_goes_on : ∀ n < 9, (after (step (runFrom threeFires n))).isSome = true := by decide +kernel

theorem witness_TwoFiresOfAnHourHaveAnotherBetween :
    let run := runFrom threeFires
    triggerOrderly (run 0) ∧ (∀ n, n < 9 → step (run n) = .next (run (n + 1))) ∧ 0 < 9 ∧
    fires 15 (run 0) ∧ fires 16 (run 5) ∧ fires 15 (run 9) := by
  refine ⟨?_, fun n hn => step_runFrom (threeFires_goes_on n hn), by decide,
    ⟨by decide, ⟨[.word 0x0500000000#40, .maybeChime 16 0 0, .maybeChime 15 0 0], by decide⟩, by decide⟩,
    ⟨by decide +kernel, ⟨[.maybeChime 15 0 0], by decide +kernel⟩, by decide +kernel⟩,
    ⟨by decide +kernel, ⟨[], by decide +kernel⟩, by decide +kernel⟩⟩
  show triggerOrderly threeFires
  simp [triggerOrderly, noHalfCall, threeFires, placed, gapIn, ready, powerOn, State.reset]

theorem witness_OnlyASmallerStartChimeLeavesTheStrikeRange :
    (let s := placed [.host] [.word 0x060000000C#40] { ready with strikeIndex := 12#32, strikeCount := 12#32 };
      s.faultCode = 0#8 ∧ healthy s ∧ strikesWithinCount s ∧
        ∃ t, step s = .next t ∧ t.faultCode = 0#8 ∧ t.strikeCount = 12#32) ∧
    (let s := placed [.host] [.word 0x0600000003#40] { ready with strikeIndex := 12#32, strikeCount := 12#32 };
      s.faultCode = 0#8 ∧ healthy s ∧ strikesWithinCount s ∧
        ∃ t, step s = .next t ∧ t.faultCode = 0#8 ∧ t.strikeCount = 3#32) :=
  ⟨⟨by decide, by decide, by decide,
    (exists_next (check := fun t => t.faultCode == 0#8 && t.strikeCount == 12#32) (by decide)).imp
      fun _ h => ⟨h.1, by simpa using h.2⟩⟩,
   ⟨by decide, by decide, by decide,
    (exists_next (check := fun t => t.faultCode == 0#8 && t.strikeCount == 3#32) (by decide)).imp
      fun _ h => ⟨h.1, by simpa using h.2⟩⟩⟩

/-- A step of HOST with one command word queued, without a fault, to a count of strikes started. -/
def startsStrikes (w : CommandWord) (s : State) (k : Nat) : Bool :=
  passes (step (placed [.host] [.word w] s)) fun t => t.faultCode == 0#8 && strikesStarted t == k

theorem witness_StrikesStartedStayWithinTheCount :
    (let s := { ready with strikeIndex := 12#32, strikeCount := 12#32 };
      s.faultCode = 0#8 ∧ healthy s ∧ strikesStarted s = 12 ∧ startsStrikes 0x0600000003#40 s 0 = true) ∧
    (let s := { gapIn .pauseBeforeStrikes 16#32 12#32 0#64 with nowMs := 1500#64 };
      s.faultCode = 0#8 ∧ healthy s ∧ strikesStarted s = 0 ∧ startsStrikes 0x0500000000#40 s 1 = true) ∧
    (let s := { gapIn .strikes 16#32 2#32 0#64 with nowMs := 1000#64 };
      s.faultCode = 0#8 ∧ healthy s ∧ strikesStarted s = 2 ∧ startsStrikes 0x0500000000#40 s 2 = true) :=
  ⟨⟨by decide, by decide, by decide, by decide⟩, ⟨by decide, by decide, by decide, by decide⟩,
    ⟨by decide, by decide, by decide, by decide⟩⟩

theorem witness_ARunEndsAtItsFirstEndedState :
    ∃ t responses, observeRun 9 (placed [.host] [.word 0x0800000000#40] ready) = some (t, responses) :=
  ⟨_, _, (Option.eq_some_of_isSome (o := observeRun 9 (placed [.host] [.word 0x0800000000#40] ready)) (by decide))⟩

/-! A fair run: the last gap of a cycle, whose poll comes at once; then ticks and, as long as S15 allows, the clock. -/

/-- Whose turn it is: HOST's first, then TICK's and CLOCK's by turns, and TICK's alone once the run has no time left. -/
def fairWho (n ms : Nat) : Agent :=
  if n = 0 then .host else if n % 2 = 1 ∧ ms + 1 < Config.runLimitMs then .clock else .tick

/-- What the host queues: one UPDATE. -/
def fairQueue (n : Nat) : List HostAction := if n = 0 then [.word (encode .update)] else []

/-- The states of the fair run. -/
def fairState : Nat → State
  | 0 => { gapIn .strikes 16#32 2#32 0#64 with nowMs := 1000#64, runMs := 1000 }
  | n + 1 =>
    (after (agentTurn (fairWho n (fairState n).runMs) { fairState n with hostQueue := fairQueue n })).getD (fairState n)

/-- What every state of the fair run after the first holds. -/
abbrev atRest (s : State) : Prop :=
  running s ∧ s.playbackState = .idle ∧ s.chimePhase = .none ∧ s.active = false ∧ s.hostQueue = []

/-- One turn after the first: a next state at rest. -/
theorem fair_turn {n : Nat} {s : State} (hn : n ≠ 0) (h : atRest s) :
    ∃ t, agentTurn (fairWho n s.runMs) { s with hostQueue := fairQueue n } = .next t ∧ atRest t := by
  obtain ⟨⟨hf, hb⟩, hi, hp, ha, hq⟩ := h
  have hs : ({ s with hostQueue := fairQueue n } : State) = s := by simp [fairQueue, hn, ← hq]
  rw [hs, fairWho, if_neg hn]
  split
  · rename_i hc
    refine ⟨{ s with nowMs := s.nowMs + 1#64, runMs := s.runMs + 1 }, ?_, ⟨hf, hb⟩, hi, hp, ha, hq⟩
    rw [agentTurn_clock, clockTurn, if_pos hc.2]
  · refine ⟨s, ?_, ⟨hf, hb⟩, hi, hp, ha, hq⟩
    rw [agentTurn_tick, tickTurn, tick_inactive ha, ite_self]

theorem fairState_succ {n : Nat} {t : State}
    (h : agentTurn (fairWho n (fairState n).runMs) { fairState n with hostQueue := fairQueue n } = .next t) :
    fairState (n + 1) = t := by simp only [fairState, h, after, Option.getD_some]

theorem fair_first : ∃ t, agentTurn (fairWho 0 (fairState 0).runMs) { fairState 0 with hostQueue := fairQueue 0 } = .next t ∧
    atRest t :=
  (exists_next (check := fun t => t.faultCode == 0#8 && t.begun && t.playbackState == .idle && t.chimePhase == .none &&
    !t.active && t.hostQueue == []) (by decide)).imp fun _ h => ⟨h.1, by simpa [and_assoc] using h.2⟩

theorem fair_atRest (n : Nat) : atRest (fairState (n + 1)) := by
  induction n with
  | zero => obtain ⟨t, h, ht⟩ := fair_first; rw [fairState_succ h]; exact ht
  | succ n ih => obtain ⟨t, h, ht⟩ := fair_turn n.succ_ne_zero ih; rw [fairState_succ h]; exact ht

theorem fair_run (n : Nat) :
    agentTurn (fairWho n (fairState n).runMs) { fairState n with hostQueue := fairQueue n } = .next (fairState (n + 1)) := by
  cases n with
  | zero => obtain ⟨t, h, -⟩ := fair_first; rw [h, fairState_succ h]
  | succ n => obtain ⟨t, h, -⟩ := fair_turn n.succ_ne_zero (fair_atRest n); rw [h, fairState_succ h]

theorem witness_EveryCycleReturnsUnderFairness :
    let who := fun n => fairWho n (fairState n).runMs
    IsRun fairState who fairQueue ∧ FairRun fairState who fairQueue ∧ PollsWithin 0 fairState who fairQueue ∧
    (∀ m, running (fairState m)) ∧ healthy (fairState 0) ∧ (fairState 0).playbackState ≠ .idle ∧
    stampedInRun (fairState 0) ∧ gapsInRange (fairState 0).params ∧ gapsAtMost 1500 (fairState 0).params ∧
    (fairState 0).runMs + 64 * (2 ^ 32 + 1500 + 0) < 2 ^ 64 := by
  have rest : ∀ m, 0 < m → atRest (fairState m) := fun m hm => by
    obtain ⟨k, rfl⟩ := Nat.exists_eq_add_of_lt hm; simpa using fair_atRest k
  refine ⟨fair_run, ⟨fun n _ => ⟨2 * (n + 1), by omega, by simp [fairWho]⟩, fun n h => ⟨2 * n + 1, by omega, ?_⟩, fun n h => ?_⟩,
    fun n => ?_, fun m => ?_, by decide, by decide, by decide, by decide, by decide, by decide⟩
  · have := h (2 * n + 1) (by omega); simp [fairWho, Nat.add_mod, this]
  · exact absurd (h (n + 1) (by omega)).2 (by simp [playing, (rest (n + 1) (by omega)).2.1])
  · cases n with
    | zero => exact ⟨0, le_rfl, by omega, .inl ⟨rfl, [], rfl⟩⟩
    | succ n => exact ⟨n + 1, le_rfl, by omega, .inr (by simp [playing, (fair_atRest n).2.1])⟩
  · cases m with
    | zero => decide
    | succ m => exact (fair_atRest m).1

end Sys2Proof.Tests
end

/-! SUPPORT. Whose turn a step is, what no turn writes, and the rounding of note parameters (00_scope.md R5, R7, R12,
R60, R103). -/

namespace Sys2Proof.Machine

/-! ### The choice of a turn (R7) -/

/-- Settles O6: a step is the turn of the schedule's first agent or, without a schedule, of the agent that the free value
at `drawCount` names. -/
theorem everyStepIsOneAgentTurn : Obligations.EveryStepIsOneAgentTurn :=
  fun s => ⟨fun _ _ h => step_scheduled h, fun h => ⟨Config.freeAgent s.drawCount, step_drawn h⟩⟩

/-! ### No turn writes a ROM or a parameter (R5, R60) -/

/-- Both ROMs and the configuration parameters are the same in both states. -/
def SameConfiguration (s t : State) : Prop :=
  t.waveRom = s.waveRom ∧ t.melodyRom = s.melodyRom ∧ t.params = s.params

theorem SameConfiguration.refl (s : State) : SameConfiguration s s := ⟨rfl, rfl, rfl⟩

theorem SameOutside.sameConfiguration {s t : State} (h : SameOutside s t) : SameConfiguration s t :=
  let ⟨hwave, hmelody, hparams, _⟩ := h
  ⟨hwave, hmelody, hparams⟩

/-- A TICK turn keeps the configuration: a tick writes nothing outside the oscillator and the sink (10_state.md R52). -/
theorem tickTurn_sameConfiguration {s t : State} (h : tickTurn s = .next t) : SameConfiguration s t := by
  obtain ⟨rfl, -, -⟩ | rfl := tickTurn_next_cases h
  · exact (tick_sameControl s).1.sameConfiguration
  · exact .refl _

/-- A HOST turn keeps the configuration, whatever the queue holds: a command, a word that is no command, or half of a
trigger call, which writes only the host's own fields (48_host_trigger.md R200). -/
theorem hostTurn_sameConfiguration {s t : State} (h : hostTurn s = .next t) : SameConfiguration s t := by
  obtain rfl | ⟨_, _, _, -, -, -, hexec⟩ | ⟨_, _, _, -, -, -, rfl⟩ | ⟨_, _, _, _, -, rfl⟩ |
    ⟨_, _, -, rfl⟩ := hostTurn_next_cases h
  · exact .refl _
  · exact (exec_sameOutside hexec).sameConfiguration
  · exact .refl s
  · rw [maybeChime_eq]; exact .refl s
  · rw [chimeIfIdle_eq]; exact .refl s

/-- A CLOCK turn keeps the configuration: it writes the time alone. -/
theorem clockTurn_sameConfiguration {s t : State} (h : clockTurn s = .next t) : SameConfiguration s t := by
  obtain ⟨rfl, -⟩ := clockTurn_next_cases h
  exact .refl s

theorem agentTurn_sameConfiguration {a : Agent} {s t : State} (h : agentTurn a s = .next t) :
    SameConfiguration s t := by
  cases a with
  | tick => exact tickTurn_sameConfiguration h
  | host => exact hostTurn_sameConfiguration h
  | clock => exact clockTurn_sameConfiguration h

/-- Settles O46: choosing the turn writes only the model's record of turns, and no agent's turn writes the
configuration. -/
theorem romsAndParametersAreNeverWritten : Obligations.RomsAndParametersAreNeverWritten := by
  intro s t h
  obtain ⟨_, _, _, hturn⟩ := step_turn s
  rw [hturn] at h
  exact (agentTurn_sameConfiguration h :)

/-! ### Rounding half up (R12, R103) -/

/-- `roundDiv` answers at least `k` exactly when `num / den` is at least `k - 1/2`. -/
theorem le_roundDiv_iff {num den k : Nat} (hd : 0 < den) : k ≤ roundDiv num den ↔ 2 * k * den ≤ 2 * num + den := by
  rw [roundDiv, Nat.le_div_iff_mul_le (by omega), Nat.mul_left_comm, Nat.mul_assoc]

/-- `roundDiv` is the nearest integer, a tie rounded up: `num / den + 1/2` lies from it to below the next (R12). -/
theorem roundDiv_nearest {num den : Nat} (hd : 0 < den) :
    2 * roundDiv num den * den ≤ 2 * num + den ∧ 2 * num + den < 2 * (roundDiv num den + 1) * den :=
  ⟨(le_roundDiv_iff hd).1 le_rfl, not_le.1 fun h => Nat.not_succ_le_self _ ((le_roundDiv_iff hd).2 h)⟩

/-- At 44000 Hz a millisecond is 44 ticks (R103). -/
theorem noteTarget_of_44000 {P : Params} (h : P.sampleRate = 44000) (d : Half) : noteTarget P d = 44 * d.toNat := by
  refine eq_of_forall_le_iff fun k => ?_
  rw [noteTarget, h, le_roundDiv_iff (by decide)]
  omega

/-- At 44000 Hz the increment leaves its 32 bits from 44000 Hz on: at 43999 Hz it falls short by more
than 97000, which rounding does not make up (R103). -/
theorem noteIncrement_overflow_iff_of_44000 {P : Params} (h : P.sampleRate = 44000) (f : Half) :
    2 ^ 32 ≤ noteIncrement P f ↔ 44000 ≤ f.toNat := by
  rw [noteIncrement, h, le_roundDiv_iff (by decide)]
  omega

/-- Settles O16: both parameters are `roundDiv` quotients with a positive divisor, and at 44000 Hz the two values are
computed from its characterisation. -/
theorem noteParametersAreRoundedHalfUp : Obligations.NoteParametersAreRoundedHalfUp :=
  ⟨fun _ _ _ hrate => ⟨roundDiv_nearest hrate, roundDiv_nearest (by decide)⟩,
    fun _ f d hrate => ⟨noteTarget_of_44000 hrate d, noteIncrement_overflow_iff_of_44000 hrate f⟩⟩

end Sys2Proof.Machine

/-! SUPPORT. What a command's rule and a whole step can do to the block, one case per outcome (30_encoding.md R84,
40_oscillator.md R105-R112, 42_sequencer.md R155-R168, 44_control.md R190-R195). -/

namespace Sys2Proof.Machine

/-! ### The ends of UPDATE (42_sequencer.md R161) -/

/-- The tick, case by case (41_sample_tick.md R131-R135). -/
theorem tick_cases (s : State) :
    (s.active = false ∧ tick s = s) ∨
    (s.active = true ∧ s.sampleTarget ≤ s.sampleCount + 1#32 ∧ tick s = failsafeStop (countSample s)) ∨
    (s.active = true ∧ ¬s.sampleTarget ≤ s.sampleCount + 1#32 ∧ tick s = toneSample (countSample s)) := by
  cases ha : s.active with
  | false => exact .inl ⟨rfl, tick_inactive ha⟩
  | true =>
    by_cases ht : s.sampleTarget ≤ s.sampleCount + 1#32
    · exact .inr (.inl ⟨rfl, ht, tick_stop ha ht⟩)
    · exact .inr (.inr ⟨rfl, ht, tick_tone ha ht⟩)

/-- Steps 1 to 3 of UPDATE find a note to end (R162-R164). -/
def noteOver (s : State) : Prop :=
  s.completedFlag = true ∨
  (s.active = true ∧ s.playbackState = .idle ∧ s.noteDurationMs.toNat < elapsed s.nowMs s) ∨
  (s.playbackState = .playingNote ∧ s.noteDurationMs.toNat ≤ elapsed s.nowMs s)

/-- `u` is what steps 1 to 3 of UPDATE leave of `s`. -/
def NotePolled (s u : State) : Prop :=
  (¬noteOver s ∧ u = s) ∨ (noteOver s ∧ u = gapEntered s.nowMs { s with completedFlag := false })

/-- How steps 4 and 5 of UPDATE end in a gap that is over: `advance` by phase, Complete left at once (R155, R166). -/
inductive GapEnd (now : Time) (s : State) : Sub → Prop
  | melodyNote {inc tgt : Word} (hphase : s.chimePhase = .melody) (hindex : s.sequenceIndex.toNat < 16)
      (hparams : entryParams s (s.melodyRom.get (Fin.ofNat 17 s.sequenceIndex.toNat)) inc tgt) :
      GapEnd now s (.done (notePlaying now (s.melodyRom.get (Fin.ofNat 17 s.sequenceIndex.toNat)) inc tgt
        { s with sequenceIndex := s.sequenceIndex + 1#32 }))
  | pause (hphase : s.chimePhase = .melody) (hindex : 16 ≤ s.sequenceIndex.toNat) :
      GapEnd now s (.done (enterPause now s))
  | firstStrike {inc tgt : Word} (hphase : s.chimePhase = .pauseBeforeStrikes)
      (hparams : entryParams s (s.melodyRom.get 16) inc tgt) :
      GapEnd now s (.done (notePlaying now (s.melodyRom.get 16) inc tgt
        { s with chimePhase := .strikes, strikeIndex := 1#32 }))
  | nextStrike {inc tgt : Word} (hphase : s.chimePhase = .strikes) (hindex : s.strikeIndex < s.strikeCount)
      (hparams : entryParams s (s.melodyRom.get 16) inc tgt) :
      GapEnd now s (.done (notePlaying now (s.melodyRom.get 16) inc tgt { s with strikeIndex := s.strikeIndex + 1#32 }))
  | rest (hmelody : s.chimePhase ≠ .melody) (hpause : s.chimePhase ≠ .pauseBeforeStrikes)
      (hstrikes : s.chimePhase = .strikes → ¬s.strikeIndex < s.strikeCount) : GapEnd now s (.done (goIdle .none s))
  | fault (c : FaultCode) (phase : ChimePhase) (strike : Word) :
      GapEnd now s (.raised c { s with chimePhase := phase, strikeIndex := strike })

@[simp] theorem notePlaying_playbackState (now : Time) (n inc tgt : Word) (s : State) :
    (notePlaying now n inc tgt s).playbackState = .playingNote := rfl

theorem gapEnd_of_startMelodyNote {now : Time} {s : State} (hphase : s.chimePhase = .melody)
    (hindex : s.sequenceIndex.toNat < 16) : GapEnd now s (andThen (startMelodyNote now s) pollCycleEnd) := by
  obtain ⟨c, h⟩ | ⟨-, inc, tgt, hp, h⟩ := startMelodyNote_cases now s <;> rw [h]
  · exact .fault c _ _
  · rw [andThen_done, pollCycleEnd_of_busy (by simp)]
    exact .melodyNote hphase hindex hp

/-- `advance`, with step 5 behind it. -/
theorem gapEnd_of_advance (now : Time) (s : State) : GapEnd now s (andThen (advance now s) pollCycleEnd) := by
  cases hphase : s.chimePhase with
  | melody =>
    by_cases hindex : s.sequenceIndex.toNat < 16
    · rw [advance_melody hphase hindex]
      exact gapEnd_of_startMelodyNote hphase hindex
    · rw [advance_melody_end hphase (not_lt.1 hindex), andThen_done, pollCycleEnd_of_busy (by simp)]
      exact .pause hphase (not_lt.1 hindex)
  | pauseBeforeStrikes =>
    rw [advance_pause hphase]
    obtain ⟨c, h⟩ | ⟨-, inc, tgt, hp, h⟩ :=
      startStrike_cases now { s with chimePhase := .strikes, strikeIndex := 0#32 } <;> rw [h]
    · exact .fault c _ _
    · rw [andThen_done, pollCycleEnd_of_busy (by simp)]
      exact .firstStrike hphase hp
  | strikes =>
    by_cases hindex : s.strikeIndex < s.strikeCount
    · rw [advance_strikes hphase hindex]
      obtain ⟨c, h⟩ | ⟨-, inc, tgt, hp, h⟩ := startStrike_cases now s <;> rw [h]
      · exact .fault c _ _
      · rw [andThen_done, pollCycleEnd_of_busy (by simp)]
        exact .nextStrike hphase hindex hp
    · rw [advance_strikes_end hphase hindex]
      exact .rest (by simp [hphase]) (by simp [hphase]) fun _ => hindex
  | none =>
    rw [advance_rest (.inl hphase)]
    exact .rest (by simp [hphase]) (by simp [hphase]) (by simp [hphase])
  | complete =>
    rw [advance_rest (.inr hphase)]
    exact .rest (by simp [hphase]) (by simp [hphase]) (by simp [hphase])

/-! ### The ends of a command's own rule -/

/-- How the rule of each command can end. -/
inductive RuleEnd (s : State) : Instr → Sub → Prop
  /-- A check fails before the rule has written anything. -/
  | refused (i : Instr) (c : FaultCode) : RuleEnd s i (.raised c s)
  | begins (pin : Byte) (hbegun : s.begun = false) :
      RuleEnd s (.begin pin) (.done (outWrite s.params.neutral { s with outputPin := pin, begun := true }))
  | volume (p : Byte) (hp : p.toNat ≤ 100) : RuleEnd s (.setVolume p) (.done { s with volume := p })
  | note {inc tgt : Word} (f d : Half) (hidle : s.playbackState = .idle) (hactive : s.active = false)
      (hparams : noteParams s.params f d = .ok (inc, tgt)) : RuleEnd s (.startNote f d) (.done (noteStarted inc tgt s))
  | stop (hidle : s.playbackState = .idle) : RuleEnd s .stopNote (.done (stopNote s))
  | read (r : Byte) (n : RegName) (hr : registerAt r = some n) :
      RuleEnd s (.readReg r) (.done { s with resp := viewOf n s })
  | ask : RuleEnd s .isPlaying (.done { s with resp := if playing s then 1#32 else 0#32 })
  /-- START_CHIME while a cycle runs (R160). -/
  | busy (n : Byte) (hplaying : s.playbackState ≠ .idle) : RuleEnd s (.startChime n) (.done s)
  | firstNote {inc tgt : Word} (n : Byte) (hn : 1 ≤ n.toNat ∧ n.toNat ≤ 12) (hidle : s.playbackState = .idle)
      (hparams : entryParams s (s.melodyRom.get 0) inc tgt) :
      RuleEnd s (.startChime n) (.done (notePlaying s.nowMs (s.melodyRom.get 0) inc tgt
        { s with chimePhase := .melody, sequenceIndex := 1#32, strikeCount := n.setWidth 32 }))
  | firstNoteFault (n : Byte) (c : FaultCode) (hidle : s.playbackState = .idle) :
      RuleEnd s (.startChime n)
        (.raised c { s with chimePhase := .melody, sequenceIndex := 0#32, strikeCount := n.setWidth 32 })
  /-- An UPDATE that ends no gap. -/
  | polled (u : State) (hu : NotePolled s u) : RuleEnd s .update (.done u)
  /-- An UPDATE that leaves Complete, which no healthy block is in (R54 item 7, R166). -/
  | closed (hidle : s.playbackState = .idle) (hphase : s.chimePhase = .complete) :
      RuleEnd s .update (.done { s with chimePhase := .none })
  | gapEnd (u : State) (r : Sub) (hu : NotePolled s u) (hgap : u.playbackState = .gap) (hr : GapEnd s.nowMs u r) :
      RuleEnd s .update r

theorem updateRule_notePolled (s : State) :
    ∃ u, NotePolled s u ∧ updateRule s = andThen (pollGapEnd s.nowMs u) pollCycleEnd := by
  obtain ⟨hc, hrepair, hend, h⟩ | ⟨hover, h⟩ := updateRule_cases s
  · refine ⟨s, .inl ⟨?_, rfl⟩, h⟩
    rintro (hover | hover | hover)
    · simp [hc] at hover
    · exact hrepair hover
    · exact hend hover
  · exact ⟨_, .inr ⟨hover, rfl⟩, h⟩

theorem updateRule_ruleEnd (s : State) : RuleEnd s .update (updateRule s) := by
  obtain ⟨u, hu, h⟩ := updateRule_notePolled s
  rw [h, pollGapEnd]
  split
  next hgap => exact .gapEnd u _ hu hgap.1 (gapEnd_of_advance s.nowMs u)
  next =>
    rw [andThen_done, pollCycleEnd]
    split
    next hclosed =>
      obtain ⟨-, rfl⟩ | ⟨-, rfl⟩ := hu
      · exact .closed hclosed.1 hclosed.2
      · exact absurd hclosed.1 nofun
    next => exact .polled u hu

theorem startChimeRule_ruleEnd (n : Byte) (s : State) : RuleEnd s (.startChime n) (startChimeRule n s) := by
  unfold startChimeRule
  split
  next => exact .refused _ _
  next hn =>
    split
    next hplaying => exact .busy n hplaying
    next hidle =>
      rw [advance_melody rfl (by simp)]
      obtain ⟨c, h⟩ | ⟨-, inc, tgt, hp, h⟩ := startMelodyNote_cases s.nowMs
        { s with chimePhase := .melody, sequenceIndex := 0#32, strikeCount := n.setWidth 32 } <;> rw [h]
      · exact .firstNoteFault n c (not_not.1 hidle)
      · exact .firstNote n ((strikesInRange_iff n).1 (by simpa using hn)) (not_not.1 hidle) hp

theorem startNoteRule_ruleEnd (f d : Half) (s : State) : RuleEnd s (.startNote f d) (startNoteRule f d s) := by
  unfold startNoteRule
  split
  next => exact .refused _ _
  next hidle =>
    obtain ⟨c, h⟩ | ⟨ha, inc, tgt, hp, h⟩ := startNote_cases f d s <;> rw [h]
    · exact .refused _ c
    · exact .note f d (not_not.1 hidle) ha hp

theorem ruleOf_ruleEnd (i : Instr) (s : State) : RuleEnd s i (ruleOf i s) := by
  cases i with
  | begin pin =>
    rw [ruleOf, beginRule]
    split
    next => exact .refused _ _
    next hb => exact .begins pin (by simpa using hb)
  | setVolume p =>
    rw [ruleOf, setVolumeRule]
    split
    next hp => exact .volume p (by simpa [volumeInRange] using hp)
    next => exact .refused _ _
  | startNote f d => exact startNoteRule_ruleEnd f d s
  | stopNote =>
    rw [ruleOf, stopNoteRule]
    split
    next => exact .refused _ _
    next hidle => exact .stop (not_not.1 hidle)
  | update => exact updateRule_ruleEnd s
  | startChime n => exact startChimeRule_ruleEnd n s
  | readReg r =>
    rw [ruleOf, readRegRule]
    split
    next n hr => exact .read r n hr
    next => exact .refused _ _
  | isPlaying => exact .ask

/-- What holds before a command and at its rule's end, and what raising a fault keeps, holds after the command. -/
theorem exec_meets {P : State → Prop} {i : Instr} {s t : State} (h : exec i s = .next t) (hs : P s)
    (hend : P (endOf (ruleOf i s))) (hraise : ∀ c u, P u → P (raiseFault c u)) : P t := by
  obtain ⟨hfin, -⟩ | ⟨-, -, -, rfl⟩ := exec_next_cases h
  · obtain he | ⟨c, u, he, rfl⟩ := finish_next_cases hfin <;> rw [he] at hend
    · exact hend
    · exact hraise c u hend
  · exact hraise _ _ hs

/-- A command that leaves the block without a fault has run its rule to the end. -/
theorem exec_next_of_faultFree {i : Instr} {s t : State} (h : exec i s = .next t) (ht : t.faultCode = 0#8) :
    ruleOf i s = .done t := by
  obtain ⟨hfin, -⟩ | ⟨-, -, -, rfl⟩ := exec_next_cases h
  · obtain he | ⟨c, u, -, rfl⟩ := finish_next_cases hfin
    · exact he
    · exact absurd ht (raiseFault_faulted c u)
  · exact absurd ht (raiseFault_faulted _ s)

/-! ### The block, and what stands beside it -/

/-- The states differ at most in the time and in the host's and the model's own fields, which no rule of the block but
the clock's writes. -/
def SameBlock (s t : State) : Prop :=
  ∃ (now : Time) (hour : Option Nat) (queue : List HostAction) (turns : List Agent) (draws ms : Nat),
    t = { s with
      nowMs := now
      lastChimedHour := hour
      hostQueue := queue
      schedule := turns
      drawCount := draws
      runMs := ms }

/-- Everything a step that answers a next state can have been to the block. -/
inductive BlockStep (s t : State) : Prop
  /-- A CLOCK turn, a turn without a step, or half of a trigger call. -/
  | beside (hsame : SameBlock s t)
  /-- A TICK turn of a running block (41_sample_tick.md R130). -/
  | tick (u : State) (hsame : SameBlock s u) (hrun : running s) (ht : t = Machine.tick u)
  /-- A word that is no command (30_encoding.md R84). -/
  | noCommand (u : State) (hsame : SameBlock s u) (hfault : s.faultCode = 0#8) (c : FaultCode) (ht : t = raiseFault c u)
  /-- A command the block takes (R84). -/
  | command (u : State) (hsame : SameBlock s u) (w : CommandWord) (queue : List HostAction)
      (hqueue : s.hostQueue = .word w :: queue) (i : Instr) (hdecode : decode w = .ok i) (hexec : exec i u = .next t)

theorem step_blockStep {s t : State} (h : step s = .next t) : BlockStep s t := by
  obtain ⟨a, turns, draws, hstep⟩ := step_turn s
  rw [hstep] at h
  cases a with
  | tick =>
    obtain ⟨rfl, hb, hf⟩ | rfl := tickTurn_next_cases h
    · exact .tick _ ⟨_, _, _, _, _, _, rfl⟩ ⟨hf, hb⟩ rfl
    · exact .beside ⟨_, _, _, _, _, _, rfl⟩
  | clock =>
    obtain ⟨rfl, -⟩ := clockTurn_next_cases h
    exact .beside ⟨_, _, _, _, _, _, rfl⟩
  | host =>
    obtain rfl | ⟨w, queue, i, hq, hd, -, he⟩ | ⟨_, _, _, -, -, hf, rfl⟩ | ⟨_, _, _, _, -, rfl⟩ | ⟨_, _, -, rfl⟩ :=
      hostTurn_next_cases h
    · exact .beside ⟨_, _, _, _, _, _, rfl⟩
    · exact .command _ ⟨_, _, _, _, _, _, rfl⟩ w queue hq i hd he
    · exact .noCommand _ ⟨_, _, _, _, _, _, rfl⟩ hf _ rfl
    · rw [maybeChime_eq]; exact .beside ⟨_, _, _, _, _, _, rfl⟩
    · rw [chimeIfIdle_eq]; exact .beside ⟨_, _, _, _, _, _, rfl⟩

/-- A relation between a state and the next that speaks of the block only, and that each of the four kinds of a step
keeps. -/
structure StepRelation (R : State → State → Prop) : Prop where
  refl (s : State) : R s s
  beside {s u t : State} : SameBlock s u → R u t → R s t
  tick {s : State} : running s → R s (Machine.tick s)
  noCommand {s : State} (c : FaultCode) : s.faultCode = 0#8 → R s (raiseFault c s)
  exec {i : Instr} {s t : State} : Machine.exec i s = .next t → R s t

theorem StepRelation.step {R : State → State → Prop} (hR : StepRelation R) {s t : State}
    (h : Machine.step s = .next t) : R s t := by
  cases step_blockStep h with
  | beside hsame => exact hR.beside hsame (hR.refl t)
  | tick u hsame hrun ht =>
    obtain ⟨_, _, _, _, _, _, rfl⟩ := hsame
    exact ht ▸ hR.beside ⟨_, _, _, _, _, _, rfl⟩ (hR.tick hrun)
  | noCommand u hsame hf c ht =>
    obtain ⟨_, _, _, _, _, _, rfl⟩ := hsame
    exact ht ▸ hR.beside ⟨_, _, _, _, _, _, rfl⟩ (hR.noCommand c hf)
  | command u hsame _ _ _ _ _ he => exact hR.beside hsame (hR.exec he)

/-! ### A faulted block (60_exceptions.md R224) -/

/-- Every field of the block but `resp` and `nowMs` is the same. -/
def BlockFrozen (s t : State) : Prop :=
  t = { s with
    resp := t.resp
    nowMs := t.nowMs
    lastChimedHour := t.lastChimedHour
    hostQueue := t.hostQueue
    schedule := t.schedule
    drawCount := t.drawCount
    runMs := t.runMs }

/-- The sixteen indices of R45 name a register. -/
theorem registerAt_of_le {r : Byte} (h : r.toNat ≤ 0x0F) : ∃ n, registerAt r = some n := by
  unfold registerAt
  interval_cases r.toNat <;> exact ⟨_, rfl⟩

/-- READ_REG of an index of R45 writes `resp` alone, in every state (44_control.md R194). -/
theorem exec_readReg {r : Byte} {n : RegName} (hr : r.toNat ≤ 0x0F) (hn : registerAt r = some n) (s : State) :
    exec (.readReg r) s = .next { s with resp := viewOf n s } := by
  have hrule : ruleOf (.readReg r) s = .done { s with resp := viewOf n s } := by rw [ruleOf, readRegRule, hn]
  by_cases hf : s.faultCode = 0#8
  · rw [exec_of_free hf rfl, hrule, finish_done]
  · rw [exec_of_faulted hf, if_pos ((legalWhenFaulted_iff _).2 (.inr ⟨r, hr, rfl⟩)), hrule, finish_done]

/-- IS_PLAYING and READ_REG, all that a faulted block takes, write `resp` alone. -/
theorem exec_blockFrozen {i : Instr} {s t : State} (hf : s.faultCode ≠ 0#8) (h : exec i s = .next t) :
    BlockFrozen s t := by
  obtain ⟨hfin, hl⟩ | ⟨h0, -⟩ := exec_next_cases h
  · obtain rfl | ⟨r, hr, rfl⟩ := (legalWhenFaulted_iff i).1 (hl.resolve_left hf)
    · cases hfin; rfl
    · obtain ⟨n, hn⟩ := registerAt_of_le hr
      rw [exec_readReg hr hn] at h
      cases h; rfl
  · exact absurd h0 hf

/-- Settles O41: a step of a faulted block is a clock's or trigger's turn beside the block, or one of the two reads. -/
theorem aFaultFreezesTheBlock : Obligations.AFaultFreezesTheBlock := by
  have hR : StepRelation fun s t => s.faultCode ≠ 0#8 → BlockFrozen s t :=
    { refl := fun _ _ => rfl
      beside := by rintro s _ t ⟨_, _, _, _, _, _, rfl⟩ h; exact h
      tick := fun hrun hf => absurd hrun.1 hf
      noCommand := fun _ h hf => absurd h hf
      exec := fun h hf => exec_blockFrozen hf h }
  exact fun _ _ h => hR.step h

end Sys2Proof.Machine

/-! SUPPORT. The invariant of 10_state.md R54: what each operation of the block makes of a healthy state, and how a step
without a fault moves the cycle (42_sequencer.md R155-R158). -/

namespace Sys2Proof.Machine

/-! ### Steps without a fault -/

/-- A step that leaves the block without a fault happens beside the block, is a tick, or is a command
whose rule ran to its end. -/
theorem step_faultFree_cases {s t : State} (h : step s = .next t) (ht : t.faultCode = 0#8) :
    ∃ u, SameBlock s u ∧ (t = u ∨ t = tick u ∨
      ∃ w queue i, s.hostQueue = .word w :: queue ∧ decode w = .ok i ∧ RuleEnd u i (.done t)) := by
  cases step_blockStep h with
  | beside hsame => exact ⟨t, hsame, .inl rfl⟩
  | tick u hsame _ htick => exact ⟨u, hsame, .inr (.inl htick)⟩
  | noCommand u _ _ c hraise => exact absurd ht (hraise ▸ raiseFault_faulted c u)
  | command u hsame w queue hqueue i hdecode hexec =>
    have hend := ruleOf_ruleEnd i u
    rw [exec_next_of_faultFree hexec ht] at hend
    exact ⟨u, hsame, .inr (.inr ⟨w, queue, i, hqueue, hdecode, hend⟩)⟩

/-! ### Healthy states -/

/-- An index of a cycle does not wrap when it grows. -/
theorem toNat_add_one {x : Word} (h : x.toNat ≤ 16) : (x + 1#32).toNat = x.toNat + 1 := by bv_omega

/-- Item 6 of R54, as the rules keep it. -/
abbrev cycleHealthy (s : State) : Prop :=
  s.sequenceIndex.toNat ≤ 16 ∧ s.strikeIndex.toNat ≤ 12 ∧ s.strikeCount.toNat ≤ 12 ∧
  (s.chimePhase ≠ .melody → s.chimePhase ≠ .pauseBeforeStrikes → s.strikeIndex.toNat ≤ s.strikeCount.toNat) ∧
  (s.chimePhase ≠ .none → 1 ≤ s.strikeCount.toNat)

theorem healthy_of_sameBlock {s u : State} (h : SameBlock s u) (hs : healthy s) : healthy u := by
  obtain ⟨_, _, _, _, _, _, rfl⟩ := h
  exact hs

/-- At rest no cycle is under way (R54 item 8). -/
theorem chimePhase_of_idle {s : State} (hs : healthy s) (h : s.playbackState = .idle) : s.chimePhase = .none := by
  obtain ⟨-, -, -, -, -, -, -, hidle⟩ := hs
  exact not_not.1 fun hp => hidle ⟨h, hp⟩

theorem ampMap_le {v : Byte} (h : v.toNat ≤ 100) : (ampMap v).toNat ≤ 127 := by
  rw [ampMap, BitVec.toNat_ofNat]
  exact (Nat.mod_le _ _).trans (by omega)

/-- A started note puts a healthy block's oscillator in its ranges (R54 items 1 and 2). -/
theorem healthy_notePlaying {now : Time} {n inc tgt : Word} {s : State} (hvolume : s.volume.toNat ≤ 100)
    (hparams : entryParams s n inc tgt) (hcycle : cycleHealthy s) (hphase : s.chimePhase ≠ .complete) :
    healthy (notePlaying now n inc tgt s) := by
  obtain ⟨-, -, htarget, -⟩ := noteParams_ok hparams
  exact ⟨⟨ampMap_le hvolume, hvolume⟩, fun _ => ⟨htarget, htarget⟩, nofun, nofun, fun _ => .inl rfl, hcycle, hphase,
    fun h => nomatch h.1⟩

theorem healthy_noteStarted {f d : Half} {inc tgt : Word} {s : State} (hs : healthy s) (hidle : s.playbackState = .idle)
    (hparams : noteParams s.params f d = .ok (inc, tgt)) : healthy (noteStarted inc tgt s) := by
  obtain ⟨⟨-, hvolume⟩, -, -, -, -, hcycle, hphase, hrest⟩ := hs
  obtain ⟨-, -, htarget, -⟩ := noteParams_ok hparams
  exact ⟨⟨ampMap_le hvolume, hvolume⟩, fun _ => ⟨htarget, htarget⟩, nofun, fun h => absurd (hidle.symm.trans h) nofun,
    fun _ => .inl rfl, hcycle, hphase, hrest⟩

theorem healthy_stopNote {s : State} (hs : healthy s) (hidle : s.playbackState = .idle) : healthy (stopNote s) := by
  obtain ⟨hranges, -, -, -, -, hcycle, hphase, hrest⟩ := hs
  exact ⟨hranges, nofun, fun _ => rfl, fun h => absurd (hidle.symm.trans h) nofun,
    fun h => absurd (hidle.symm.trans h) nofun, hcycle, hphase, hrest⟩

/-- Ending a note keeps the block healthy, whatever state the note was in. -/
theorem healthy_gapEntered {s : State} (hs : healthy s) :
    healthy (gapEntered s.nowMs { s with completedFlag := false }) := by
  obtain ⟨hranges, -, -, -, -, hcycle, hphase, -⟩ := hs
  exact ⟨hranges, nofun, nofun, fun _ => ⟨rfl, rfl⟩, nofun, hcycle, hphase, fun h => nomatch h.1⟩

theorem healthy_enterPause {now : Time} {s : State} (hs : healthy s) (hgap : s.playbackState = .gap)
    (hphase : s.chimePhase = .melody) : healthy (enterPause now s) := by
  obtain ⟨hranges, hcount, hcompleted, hsilent, -, ⟨hseq, hindex, hstrikes, -, hsome⟩, -, -⟩ := hs
  exact ⟨hranges, hcount, hcompleted, fun _ => hsilent hgap, nofun,
    ⟨hseq, hindex, hstrikes, fun _ h => absurd rfl h, fun _ => hsome (by simp [hphase])⟩, nofun, fun h => nomatch h.1⟩

theorem healthy_goIdle {s : State} (hs : healthy s) (hmelody : s.chimePhase ≠ .melody)
    (hpause : s.chimePhase ≠ .pauseBeforeStrikes) : healthy (goIdle .none s) := by
  obtain ⟨hranges, -, -, -, -, ⟨hseq, hindex, hstrikes, hle, -⟩, -, -⟩ := hs
  exact ⟨hranges, nofun, fun _ => rfl, nofun, nofun,
    ⟨hseq, hindex, hstrikes, fun _ _ => hle hmelody hpause, fun h => absurd rfl h⟩, nofun, fun h => h.2 rfl⟩

theorem healthy_notePolled {s u : State} (hs : healthy s) (hu : NotePolled s u) : healthy u := by
  obtain ⟨-, rfl⟩ | ⟨-, rfl⟩ := hu
  · exact hs
  · exact healthy_gapEntered hs

/-- The end of a gap keeps the block healthy: an index grows only below its bound (R155). -/
theorem healthy_of_gapEnd {now : Time} {s t : State} (h : GapEnd now s (.done t)) (hs : healthy s)
    (hgap : s.playbackState = .gap) : healthy t := by
  obtain ⟨⟨-, hvolume⟩, -, -, -, -, ⟨hseq, hindex, hstrikes, hle, hsome⟩, -, -⟩ := id hs
  cases h with
  | melodyNote hphase hlt hparams =>
    refine healthy_notePlaying hvolume hparams ⟨?_, hindex, hstrikes, hle, hsome⟩ (by simp [hphase])
    show (s.sequenceIndex + 1#32).toNat ≤ 16
    rw [toNat_add_one hseq]
    exact hlt
  | pause hphase _ => exact healthy_enterPause hs hgap hphase
  | firstStrike hphase hparams =>
    have hone : 1 ≤ s.strikeCount.toNat := hsome (by simp [hphase])
    exact healthy_notePlaying hvolume hparams ⟨hseq, by simp, hstrikes, fun _ _ => hone, fun _ => hone⟩ (by simp)
  | nextStrike hphase hlt hparams =>
    have hnext : (s.strikeIndex + 1#32).toNat ≤ s.strikeCount.toNat := by
      rw [toNat_add_one (hindex.trans (by decide))]
      exact hlt
    exact healthy_notePlaying hvolume hparams ⟨hseq, hnext.trans hstrikes, hstrikes, fun _ _ => hnext, hsome⟩
      (by simp [hphase])
  | rest hmelody hpause _ => exact healthy_goIdle hs hmelody hpause

/-- A command whose rule ends without a fault keeps the block healthy. -/
theorem healthy_of_ruleEnd {i : Instr} {s t : State} (h : RuleEnd s i (.done t)) (hs : healthy s) :
    healthy t := by
  cases h with
  | begins pin _ => exact hs
  | volume p hp =>
    obtain ⟨⟨hamplitude, -⟩, hrest⟩ := hs
    exact ⟨⟨hamplitude, hp⟩, hrest⟩
  | note f d hidle _ hparams => exact healthy_noteStarted hs hidle hparams
  | stop hidle => exact healthy_stopNote hs hidle
  | read r n _ => exact hs
  | ask => exact hs
  | busy n _ => exact hs
  | firstNote n hn _ hparams =>
    obtain ⟨⟨-, hvolume⟩, -, -, -, -, ⟨-, hindex, -⟩, -, -⟩ := hs
    have hcount : (n.setWidth 32).toNat = n.toNat := by simp; omega
    exact healthy_notePlaying hvolume hparams
      ⟨by simp, hindex, hcount ▸ hn.2, fun h => absurd rfl h, fun _ => hcount ▸ hn.1⟩ nofun
  | polled _ hu => exact healthy_notePolled hs hu
  | closed _ hphase =>
    obtain ⟨-, -, -, -, -, -, hcomplete, -⟩ := hs
    exact absurd hphase hcomplete
  | gapEnd u _ hu hgap hr => exact healthy_of_gapEnd hr (healthy_notePolled hs hu) hgap

/-- A tick keeps the block healthy: a tone tick ends below the target, and no gap sounds (R54 items 2 to 5). -/
theorem healthy_tick {s : State} (hs : healthy s) : healthy (tick s) := by
  obtain ⟨hranges, hcount, hcompleted, hsilent, -, hcycle, hphase, hrest⟩ := id hs
  obtain ⟨-, h⟩ | ⟨ha, -, h⟩ | ⟨ha, htone, h⟩ := tick_cases s <;> rw [h]
  · exact hs
  · exact ⟨hranges, nofun, fun _ => rfl, fun hgap => absurd ((hsilent hgap).1.symm.trans ha) nofun, fun _ => .inr rfl,
      hcycle, hphase, hrest⟩
  · exact ⟨hranges, fun _ => ⟨(hcount ha).1, not_le.1 htone⟩, hcompleted, hsilent, fun _ => .inl ha, hcycle, hphase,
      hrest⟩

/-- A step of a healthy block that raises no fault leaves it healthy. -/
theorem healthy_step {s t : State} (hs : healthy s) (h : step s = .next t)
    (ht : t.faultCode = 0#8) : healthy t := by
  obtain ⟨u, hsame, hcases⟩ := step_faultFree_cases h ht
  have hu := healthy_of_sameBlock hsame hs
  obtain rfl | rfl | ⟨_, _, _, -, -, hend⟩ := hcases
  · exact hu
  · exact healthy_tick hu
  · exact healthy_of_ruleEnd hend hu

/-- Settles O43: the fault code is never cleared, so a state that ends without a fault began without one. -/
theorem everyStepKeepsTheInvariant : Obligations.EveryStepKeepsTheInvariant := by
  intro s t hs h ht
  have hf : s.faultCode = 0#8 := by
    by_contra hf
    rw [aFaultFreezesTheBlock s t h hf] at ht
    exact hf ht
  exact healthy_step (hs hf) h ht

end Sys2Proof.Machine

/-! SUPPORT. The strikes of a cycle (10_state.md R35, R54 item 6; 42_sequencer.md R155, R156, R158): how a step can move
the strike fields, and where item 6 as written fails. -/

namespace Sys2Proof.Machine

/-! ### The moves of the strike fields -/

/-- How a step without a fault moves the phase and the strike fields; `called n` says that START_CHIME `n` was given. -/
inductive StrikeMove (called : Byte → Prop) (s t : State) : Prop
  /-- The strike fields stay, and the phase moves neither into Melody nor into Strikes. -/
  | kept (hindex : t.strikeIndex = s.strikeIndex) (hcount : t.strikeCount = s.strikeCount)
      (hphase : t.chimePhase = s.chimePhase ∨ (s.chimePhase = .melody ∧ t.chimePhase = .pauseBeforeStrikes) ∨
        (s.chimePhase = .strikes ∧ t.chimePhase = .none))
  /-- A strike starts (R156). -/
  | strike (hstarted : strikesStarted t = strikesStarted s + 1) (hphase : t.chimePhase = .strikes)
      (hplaying : t.playbackState = .playingNote)
  /-- A cycle starts, and keeps the index of the last one (R158). -/
  | chime (n : Byte) (hcalled : called n) (hidle : s.playbackState = .idle) (hphase : t.chimePhase = .melody)
      (hindex : t.strikeIndex = s.strikeIndex) (hcount : t.strikeCount.toNat = n.toNat)

theorem StrikeMove.refl (called : Byte → Prop) (s : State) : StrikeMove called s s := .kept rfl rfl (.inl rfl)

/-- Of the fields a move speaks of, steps 1 to 3 of UPDATE write none but the sub-state, and they leave no rest. -/
theorem StrikeMove.of_notePolled {called : Byte → Prop} {s u t : State} (hu : NotePolled s u)
    (h : StrikeMove called u t) : StrikeMove called s t := by
  obtain ⟨-, rfl⟩ | ⟨-, rfl⟩ := hu
  · exact h
  · cases h with
    | kept hindex hcount hphase => exact .kept hindex hcount hphase
    | strike hstarted hphase hplaying => exact .strike hstarted hphase hplaying
    | chime _ _ hidle => exact absurd hidle nofun

/-- The end of a gap starts a strike or moves the phase on (R155). -/
theorem GapEnd.strikeMove {called : Byte → Prop} {now : Time} {s t : State} (h : GapEnd now s (.done t))
    (hs : healthy s) : StrikeMove called s t := by
  obtain ⟨-, -, -, -, -, ⟨-, hindex, -⟩, hcomplete, -⟩ := hs
  cases h with
  | melodyNote _ _ _ => exact .kept rfl rfl (.inl rfl)
  | pause hphase _ => exact .kept rfl rfl (.inr (.inl ⟨hphase, rfl⟩))
  | firstStrike hphase _ =>
    exact .strike (by rw [strikesStarted_before (.inr hphase)]; rfl) rfl rfl
  | nextStrike hphase _ _ =>
    refine .strike ?_ hphase rfl
    rw [strikesStarted_after (s := s) (by simp [hphase]) (by simp [hphase]),
      strikesStarted_after (by simp [hphase, notePlaying, noteStarted]) (by simp [hphase, notePlaying, noteStarted])]
    exact toNat_add_one (hindex.trans (by decide))
  | rest hmelody hpause _ =>
    refine .kept rfl rfl ?_
    cases hphase : s.chimePhase with
    | none => exact .inl rfl
    | strikes => exact .inr (.inr ⟨rfl, rfl⟩)
    | melody => exact absurd hphase hmelody
    | pauseBeforeStrikes => exact absurd hphase hpause
    | complete => exact absurd hphase hcomplete

theorem RuleEnd.strikeMove {i : Instr} {s t : State} (h : RuleEnd s i (.done t)) (hs : healthy s) :
    StrikeMove (i = .startChime ·) s t := by
  cases h with
  | firstNote n _ hidle _ => exact .chime n rfl hidle rfl rfl (by simp [notePlaying, noteStarted]; omega)
  | polled _ hu => exact .of_notePolled hu (.refl _ t)
  | closed _ hphase =>
    obtain ⟨-, -, -, -, -, -, hcomplete, -⟩ := hs
    exact absurd hphase hcomplete
  | gapEnd u _ hu _ hr => exact .of_notePolled hu (hr.strikeMove (healthy_notePolled hs hu))
  | _ => exact .kept rfl rfl (.inl rfl)

/-- A word that decodes to START_CHIME is the word of that command (30_encoding.md R82, R85). -/
theorem eq_encode_of_decode_startChime {w : CommandWord} {n : Byte} (h : decode w = .ok (.startChime n)) :
    w = encode (.startChime n) := by
  unfold decode at h
  split at h
  case h_6 hop =>
    obtain ⟨hreserved, hn⟩ := Laws.decodeB_eq_ok.1 h
    cases hn
    refine BitVec.eq_of_toNat_eq ?_
    rw [Laws.opcodeOf_toNat] at hop
    rw [encode, Laws.encodeB_toNat, Laws.imm8Of_toNat, BitVec.toNat_ofNat]
    omega
  all_goals simp [Laws.decodeB_eq_ok, Laws.decodeN_eq_ok, Laws.decodeZ_eq_ok] at h

/-- A step of a healthy block that raises no fault makes one of the moves. -/
theorem step_strikeMove {s t : State} (hs : healthy s) (h : step s = .next t)
    (ht : t.faultCode = 0#8) :
    StrikeMove (fun n => ∃ queue, s.hostQueue = .word (encode (.startChime n)) :: queue) s t := by
  obtain ⟨u, hsame, hcases⟩ := step_faultFree_cases h ht
  obtain ⟨_, _, _, _, _, _, rfl⟩ := hsame
  obtain rfl | rfl | ⟨w, queue, i, hqueue, hdecode, hend⟩ := hcases
  · exact .kept rfl rfl (.inl rfl)
  · exact .kept (tick_strikeIndex _) (tick_strikeCount _) (.inl (tick_chimePhase _))
  · cases hend.strikeMove hs with
    | kept hindex hcount hphase => exact .kept hindex hcount hphase
    | strike hstarted hphase hplaying => exact .strike hstarted hphase hplaying
    | chime n hcalled hidle hphase hindex hcount =>
      subst hcalled
      exact .chime n ⟨queue, eq_encode_of_decode_startChime hdecode ▸ hqueue⟩ hidle hphase hindex hcount

/-! ### The statements -/

/-- Settles O57: the block stays healthy, so the range can fail only in Melody and PauseBeforeStrikes; a strike is in
neither, and a step that keeps the strike fields keeps the range. -/
theorem onlyASmallerStartChimeLeavesTheStrikeRange : Obligations.OnlyASmallerStartChimeLeavesTheStrikeRange := by
  intro s t _ hs ⟨_, hle, _⟩ h ht
  obtain ⟨-, -, -, -, -, ⟨hseq, -, hmax, hrange, -⟩, -, -⟩ := healthy_step hs h ht
  cases step_strikeMove hs h ht with
  | kept hindex hcount _ => exact .inl ⟨hseq, by rw [hindex, hcount]; exact hle, hmax⟩
  | strike _ hphase _ => exact .inl ⟨hseq, hrange (by simp [hphase]) (by simp [hphase]), hmax⟩
  | chime n hcalled hidle hphase hindex hcount =>
    by_cases hsmall : t.strikeCount.toNat < s.strikeIndex.toNat
    · obtain ⟨queue, hqueue⟩ := hcalled
      exact .inr ⟨hidle, hphase, hindex, hsmall, n, queue, hqueue, hcount⟩
    · exact .inl ⟨hseq, by rw [hindex]; exact not_lt.1 hsmall, hmax⟩

/-- In a healthy block the strikes started are within the count. -/
theorem strikesStarted_le {s : State} (hs : healthy s) : strikesStarted s ≤ s.strikeCount.toNat := by
  obtain ⟨-, -, -, -, -, ⟨-, -, -, hrange, -⟩, -, -⟩ := hs
  by_cases hbefore : s.chimePhase = .melody ∨ s.chimePhase = .pauseBeforeStrikes
  · rw [strikesStarted_before hbefore]
    exact Nat.zero_le _
  · rw [not_or] at hbefore
    rw [strikesStarted_after hbefore.1 hbefore.2]
    exact hrange hbefore.1 hbefore.2

/-- A move that keeps the strike fields keeps the number of strikes started: the pause has none, like the melody, and at
rest after the strikes they still count. -/
theorem strikesStarted_of_kept {s t : State} (hindex : t.strikeIndex = s.strikeIndex)
    (hphase : t.chimePhase = s.chimePhase ∨ (s.chimePhase = .melody ∧ t.chimePhase = .pauseBeforeStrikes) ∨
      (s.chimePhase = .strikes ∧ t.chimePhase = .none)) : strikesStarted t = strikesStarted s := by
  obtain hphase | ⟨hs, ht⟩ | ⟨hs, ht⟩ := hphase
  · simp only [strikesStarted, hphase, hindex]
  · rw [strikesStarted_before (.inr ht), strikesStarted_before (.inl hs)]
  · simp only [strikesStarted, hs, ht, hindex]

/-- Settles O60: the bounds are those of the healthy state the step leaves, and the three ways are the three moves. -/
theorem strikesStartedStayWithinTheCount : Obligations.StrikesStartedStayWithinTheCount := by
  intro s t _ hs h ht
  have hnext := healthy_step hs h ht
  refine ⟨strikesStarted_le hnext, ?_, ?_⟩
  · obtain ⟨-, -, -, -, -, ⟨-, -, hmax, -⟩, -, -⟩ := hnext
    exact hmax
  · cases step_strikeMove hs h ht with
    | kept hindex _ hphase => exact .inl (strikesStarted_of_kept hindex hphase)
    | strike hstarted hphase hplaying => exact .inr (.inl ⟨hstarted, hphase, hplaying⟩)
    | chime n _ hidle hphase _ _ =>
      exact .inr (.inr ⟨strikesStarted_before (.inl hphase), chimePhase_of_idle hs hidle, hphase⟩)

/-! ### Item 6 of R54 as written -/

/-- A block at rest after a cycle of 12 strikes, given START_CHIME 3. -/
def restAfterTwelve : State :=
  { State.reset with
    volume := 50#8
    begun := true
    strikeIndex := 12#32
    strikeCount := 12#32
    melodyRom := Vector.replicate 17 0x014A0190#32
    schedule := [.host]
    hostQueue := [.word 0x0600000003#40] }

/-- The first melody note sounds: increment 32212255 and target 17600, at amplitude 63. -/
def melodyAfterTwelve : State :=
  notePlaying Config.now0 0x014A0190#32 32212255#32 17600#32
    { restAfterTwelve with
      chimePhase := .melody
      sequenceIndex := 1#32
      strikeCount := 3#32
      schedule := []
      hostQueue := [] }

theorem step_restAfterTwelve : step restAfterTwelve = .next melodyAfterTwelve := rfl

/-- Refutes O45: after a cycle of 12 strikes, START_CHIME 3 sets the count to 3 and leaves the index at 12 (R158). -/
theorem not_strikeIndexNeverExceedsStrikeCount : ¬Obligations.StrikeIndexNeverExceedsStrikeCount := by
  intro h
  have hrange := h restAfterTwelve melodyAfterTwelve rfl (by decide) (by decide) step_restAfterTwelve rfl
  exact absurd hrange (by decide)

end Sys2Proof.Machine

/-! SUPPORT. What each step keeps of the fields of the block (10_state.md R22-R43, R52): the fault code, BEGIN and the
pin, the sink, the amplitude and the sequencer's fields. -/

namespace Sys2Proof.Machine

/-! ### The fault code (R40, 60_exceptions.md R221) -/

theorem raiseFault_faultCode_le {s : State} (h : s.faultCode.toNat ≤ 0x0C) (c : FaultCode) :
    (raiseFault c s).faultCode.toNat ≤ 0x0C := by
  rw [raiseFault_faultCode]
  split
  · exact faultByte_le c
  · exact h

/-- Settles O42: the code of a state is the old one or one that `raiseFault` records. -/
theorem faultCodeStaysNamed : Obligations.FaultCodeStaysNamed := by
  have hR : StepRelation fun s t => s.faultCode.toNat ≤ 0x0C → t.faultCode.toNat ≤ 0x0C :=
    { refl := fun _ hs => hs
      beside := by rintro s _ t ⟨_, _, _, _, _, _, rfl⟩ h; exact h
      tick := fun {s} _ hs => (tick_faultCode s).symm ▸ hs
      noCommand := fun c _ hs => raiseFault_faultCode_le hs c
      exec := fun {i s _} h hs => exec_meets (P := fun u => u.faultCode.toNat ≤ 0x0C) h hs
        ((ruleOf_faultCode i s).symm ▸ hs) fun c _ hu => raiseFault_faultCode_le hu c }
  exact fun _ _ hs h => hR.step h hs

/-! ### BEGIN and the pin (R39, 44_control.md R190) -/

/-- Only BEGIN's own writes touch `begun` and the pin, and only in a block that has not begun. -/
theorem RuleEnd.begin_kept {i : Instr} {s : State} {r : Sub} (h : RuleEnd s i r) (hb : s.begun = true) :
    (endOf r).begun = true ∧ (endOf r).outputPin = s.outputPin := by
  cases h with
  | begins _ hbegun => exact absurd (hbegun.symm.trans hb) nofun
  | polled _ hu => obtain ⟨-, rfl⟩ | ⟨-, rfl⟩ := hu <;> exact ⟨hb, rfl⟩
  | gapEnd _ _ hu _ hr => obtain ⟨-, rfl⟩ | ⟨-, rfl⟩ := hu <;> cases hr <;> exact ⟨hb, rfl⟩
  | _ => exact ⟨hb, rfl⟩

/-- Settles O39: BEGIN alone writes `begun` and the pin, and it raises in a block that has begun. -/
theorem beginIsNeverUndone : Obligations.BeginIsNeverUndone := by
  have hR : StepRelation fun s t => s.begun = true → t.begun = true ∧ t.outputPin = s.outputPin :=
    { refl := fun _ hb => ⟨hb, rfl⟩
      beside := by rintro s _ t ⟨_, _, _, _, _, _, rfl⟩ h; exact h
      tick := fun {s} _ hb => ⟨(tick_begun s).trans hb, tick_outputPin s⟩
      noCommand := fun _ _ hb => ⟨hb, rfl⟩
      exec := fun {i s _} h hb => exec_meets (P := fun u => u.begun = true ∧ u.outputPin = s.outputPin) h ⟨hb, rfl⟩
        ((ruleOf_ruleEnd i s).begin_kept hb) fun _ _ hu => hu }
  exact fun _ _ h => hR.step h

/-! ### The sink (R28, R43, 20_memory.md R64) -/

/-- `t` has what `s` wrote and some more, and its `OUTPUT` is the newest value of what is more. -/
def SinkGrows (s t : State) : Prop :=
  ∃ new, t.outTrace = s.outTrace ++ new ∧ t.output = new.getLastD s.output

theorem SinkGrows.of_same {s t : State} (htrace : t.outTrace = s.outTrace) (hout : t.output = s.output) :
    SinkGrows s t := ⟨[], by rw [htrace, List.append_nil], hout⟩

theorem SinkGrows.of_write {s t : State} {v : Byte} (htrace : t.outTrace = s.outTrace ++ [v]) (hout : t.output = v) :
    SinkGrows s t := ⟨[v], htrace, hout⟩

theorem SinkGrows.trans {s u t : State} (h : SinkGrows s u) (g : SinkGrows u t) : SinkGrows s t := by
  obtain ⟨new, htrace, hout⟩ := h
  obtain ⟨more, htrace', hout'⟩ := g
  refine ⟨new ++ more, by rw [htrace', htrace, List.append_assoc], ?_⟩
  rw [hout', hout]
  simp [List.getLastD_eq_getLast?, Option.getD_or]

theorem NotePolled.sinkGrows {s u : State} (h : NotePolled s u) : SinkGrows s u := by
  obtain ⟨-, rfl⟩ | ⟨-, rfl⟩ := h
  · exact .of_same rfl rfl
  · exact .of_write rfl rfl

theorem GapEnd.sinkGrows {now : Time} {s : State} {r : Sub} (h : GapEnd now s r) : SinkGrows s (endOf r) := by
  cases h with
  | rest => exact .of_write rfl rfl
  | _ => exact .of_same rfl rfl

theorem RuleEnd.sinkGrows {i : Instr} {s : State} {r : Sub} (h : RuleEnd s i r) : SinkGrows s (endOf r) := by
  cases h with
  | begins => exact .of_write rfl rfl
  | stop => exact .of_write rfl rfl
  | polled _ hu => exact hu.sinkGrows
  | gapEnd _ _ hu _ hr => exact hu.sinkGrows.trans hr.sinkGrows
  | _ => exact .of_same rfl rfl

theorem tick_sinkGrows (s : State) : SinkGrows s (tick s) := by
  obtain ⟨-, h⟩ | ⟨-, -, h⟩ | ⟨-, -, h⟩ := tick_cases s <;> rw [h]
  · exact .of_same rfl rfl
  · exact .of_write rfl rfl
  · exact .of_write rfl rfl

theorem step_sinkGrows {s t : State} (h : step s = .next t) : SinkGrows s t := by
  have hR : StepRelation SinkGrows :=
    { refl := fun _ => .of_same rfl rfl
      beside := by rintro s _ t ⟨_, _, _, _, _, _, rfl⟩ h; exact h
      tick := fun {s} _ => tick_sinkGrows s
      noCommand := fun _ _ => .of_same rfl rfl
      exec := fun {i s _} h => exec_meets h (.of_same rfl rfl) (ruleOf_ruleEnd i s).sinkGrows fun _ _ hu => hu }
  exact hR.step h

/-- A sink that grows keeps `OUTPUT` equal to its newest entry. -/
theorem SinkGrows.outputIsNewest {s t : State} (h : SinkGrows s t) (hs : outputIsNewest s) :
    Machine.outputIsNewest t := by
  obtain ⟨new, htrace, hout⟩ := h
  cases new using List.reverseRecOn with
  | nil =>
    rw [List.append_nil] at htrace
    rw [Machine.outputIsNewest, htrace, hout]
    exact hs
  | append_singleton new v => exact .inr (by rw [htrace, hout]; simp)

/-- Settles O48: every sink write appends its value, so what a step adds fixes the new `OUTPUT`. -/
theorem outputIsAlwaysTheNewestWrite : Obligations.OutputIsAlwaysTheNewestWrite := by
  intro s t h
  obtain ⟨new, htrace, hout⟩ := step_sinkGrows h
  refine ⟨⟨new, htrace⟩, (step_sinkGrows h).outputIsNewest, fun hsame => ?_⟩
  obtain rfl : new = [] := List.self_eq_append_right.1 (hsame.symm.trans htrace)
  exact hout

/-! ### The amplitude (R25, 40_oscillator.md R104, 70_reset_and_hazards.md R257) -/

/-- If the amplitude changes, a note with no ticks counted has started, at the map of the volume before. -/
def LatchesAmplitude (s t : State) : Prop :=
  t.amplitude ≠ s.amplitude →
    t.active = true ∧ t.sampleCount = 0#32 ∧ t.completedFlag = false ∧
    t.amplitude = BitVec.ofNat 8 (s.volume.toNat * 127 / 100)

theorem LatchesAmplitude.of_same {s t : State} (h : t.amplitude = s.amplitude) : LatchesAmplitude s t :=
  fun hne => absurd h hne

theorem GapEnd.latchesAmplitude {now : Time} {s : State} {r : Sub} (h : GapEnd now s r) :
    LatchesAmplitude s (endOf r) := by
  cases h with
  | melodyNote => exact fun _ => ⟨rfl, rfl, rfl, rfl⟩
  | firstStrike => exact fun _ => ⟨rfl, rfl, rfl, rfl⟩
  | nextStrike => exact fun _ => ⟨rfl, rfl, rfl, rfl⟩
  | _ => exact .of_same rfl

/-- A rule that changes the amplitude ends with the start of a note. -/
theorem RuleEnd.latchesAmplitude {i : Instr} {s : State} {r : Sub} (h : RuleEnd s i r) :
    LatchesAmplitude s (endOf r) := by
  cases h with
  | note => exact fun _ => ⟨rfl, rfl, rfl, rfl⟩
  | firstNote => exact fun _ => ⟨rfl, rfl, rfl, rfl⟩
  | polled _ hu => obtain ⟨-, rfl⟩ | ⟨-, rfl⟩ := hu <;> exact .of_same rfl
  | gapEnd _ _ hu _ hr => obtain ⟨-, rfl⟩ | ⟨-, rfl⟩ := hu <;> exact hr.latchesAmplitude
  | _ => exact .of_same rfl

/-- A tick does not read the volume. -/
theorem tick_volume_irrelevant (s : State) (v : Byte) : tick { s with volume := v } = { tick s with volume := v } := by
  obtain ⟨ha, h⟩ | ⟨ha, ht, h⟩ | ⟨ha, ht, h⟩ := tick_cases s <;> rw [h]
  · exact tick_inactive ha
  · exact tick_stop ha ht
  · exact tick_tone ha ht

/-- Settles O21: of all a step can do, only the note starts write the amplitude. -/
theorem amplitudeIsLatchedAtNoteStart : Obligations.AmplitudeIsLatchedAtNoteStart := by
  have hR : StepRelation LatchesAmplitude :=
    { refl := fun _ => .of_same rfl
      beside := by rintro s _ t ⟨_, _, _, _, _, _, rfl⟩ h; exact h
      tick := fun {s} _ => .of_same (tick_amplitude s)
      noCommand := fun _ _ => .of_same rfl
      exec := fun {i s _} h => exec_meets h (.of_same rfl) (ruleOf_ruleEnd i s).latchesAmplitude fun _ _ hu => hu }
  exact ⟨fun _ _ h => hR.step h, tick_volume_irrelevant⟩

/-! ### The sequencer's fields (R32-R37, R52) -/

/-- The seven fields of the sequencer are the same in both states. -/
def SameSequencer (s t : State) : Prop :=
  t.playbackState = s.playbackState ∧ t.chimePhase = s.chimePhase ∧ t.sequenceIndex = s.sequenceIndex ∧
  t.strikeIndex = s.strikeIndex ∧ t.strikeCount = s.strikeCount ∧ t.noteStartTimeMs = s.noteStartTimeMs ∧
  t.noteDurationMs = s.noteDurationMs

theorem SameSequencer.refl (s : State) : SameSequencer s s := ⟨rfl, rfl, rfl, rfl, rfl, rfl, rfl⟩

theorem RuleEnd.sameSequencer {i : Instr} {s : State} {r : Sub} (h : RuleEnd s i r) (hupdate : i ≠ .update)
    (hchime : ∀ n, i ≠ .startChime n) : SameSequencer s (endOf r) := by
  cases h with
  | firstNote n => exact absurd rfl (hchime n)
  | firstNoteFault n => exact absurd rfl (hchime n)
  | polled => exact absurd rfl hupdate
  | closed => exact absurd rfl hupdate
  | gapEnd => exact absurd rfl hupdate
  | _ => exact .refl s

/-- Settles O31: no other rule's end differs in a field of the sequencer, and neither does a tick. -/
theorem sequencerFieldsHaveTwoWriters : Obligations.SequencerFieldsHaveTwoWriters := by
  refine ⟨fun i s t h hupdate hchime => ?_, fun s => ?_⟩
  · exact exec_meets (P := SameSequencer s) h (.refl s) ((ruleOf_ruleEnd i s).sameSequencer hupdate hchime)
      fun _ _ hu => hu
  · simp [position]

/-- Settles O15: the three kinds of a tick write these fields alone. -/
theorem tickWritesOnlyItsOwnFields : Obligations.TickWritesOnlyItsOwnFields := by
  intro s
  obtain ⟨-, h⟩ | ⟨-, -, h⟩ | ⟨-, -, h⟩ := tick_cases s <;> rw [h] <;> rfl

end Sys2Proof.Machine

/-! SUPPORT. The registers of READ_REG (10_state.md R45-R49), the pin without effect (R39), and the state after power-on
(R53). -/

namespace Sys2Proof.Machine

/-! ### The bit layouts of the register view (R38, R45-R48) -/

/-- A 7-bit view of a byte below 128 is the byte. -/
theorem lowSevenBits_toNat {v : Byte} (h : v.toNat ≤ 127) : (0#25 ++ v.extractLsb' 0 7).toNat = v.toNat := by
  rw [Laws.append_toNat, BitVec.extractLsb'_toNat, BitVec.toNat_ofNat, Nat.shiftRight_zero]
  omega

theorem oscFlags_toNat (s : State) : (oscFlags s).toNat = s.active.toNat + 2 * s.completedFlag.toNat := by
  simp only [oscFlags, Laws.append_toNat, BitVec.toNat_ofBool, BitVec.toNat_ofNat]
  omega

theorem seqState_toNat (s : State) :
    (seqState s).toNat = (playbackCode s.playbackState).toNat + 16 * (phaseCode s.chimePhase).toNat := by
  simp only [seqState, Laws.append_toNat, BitVec.toNat_ofNat]
  omega

theorem statusWord_toNat (s : State) :
    (statusWord s).toNat =
      s.begun.toNat + 2 * (playing s).toNat + 2 ^ 8 * s.faultCode.toNat + 2 ^ 16 * s.outputPin.toNat := by
  simp only [statusWord, Laws.append_toNat, BitVec.toNat_ofBool, BitVec.toNat_ofNat]
  omega

theorem playing_toNat (s : State) : (playing s).toNat = if s.playbackState = .idle then 0 else 1 := by
  unfold playing
  cases s.playbackState <;> rfl

theorem registerAt_of_gt {r : Byte} (h : 0x10 ≤ r.toNat) : registerAt r = none := by
  unfold registerAt
  split
  case h_17 => rfl
  all_goals omega

/-- Settles O35: the register's view, read at each index in its layout. -/
theorem readRegReturnsTheRegister : Obligations.ReadRegReturnsTheRegister := by
  refine ⟨fun s r hr => ?_, fun s r hr hf => ?_⟩
  · obtain ⟨n, hn⟩ := registerAt_of_le hr
    refine ⟨viewOf n s, exec_readReg hr hn s, ?_⟩
    have view : ∀ k m, r = k → registerAt k = some m → n = m := by
      rintro _ m rfl hm
      exact Option.some.inj (hn.symm.trans hm)
    refine ⟨fun h => ?_, fun h => ?_, fun h ha => ?_, fun h => ?_, fun h => ?_, fun h => ?_, fun h hv => ?_, fun h => ?_,
      fun h => ?_, fun h => ?_, fun h => ?_, fun h => ?_, fun h => ?_, fun h => ?_, fun h => ?_, fun h => ?_⟩ <;>
      obtain rfl := view _ _ h rfl
    · rfl
    · rfl
    · exact lowSevenBits_toNat ha
    · exact oscFlags_toNat s
    · rfl
    · rfl
    · exact lowSevenBits_toNat (hv.trans (by decide))
    · rw [viewOf, Laws.append_toNat]; simp
    · rw [viewOf, seqState_toNat]
      cases s.playbackState <;> cases s.chimePhase <;> rfl
    · rfl
    · rfl
    · rfl
    · rw [viewOf, BitVec.extractLsb'_toNat]; simp
    · rw [viewOf, BitVec.extractLsb'_toNat, Nat.shiftRight_eq_div_pow]
      have := s.noteStartTimeMs.isLt
      omega
    · rfl
    · rw [viewOf, statusWord_toNat, playing_toNat]
  · have hrule : ruleOf (.readReg r) s = .raised .badRegister s := by rw [ruleOf, readRegRule, registerAt_of_gt hr]
    rw [exec_of_free hf rfl, hrule, finish_raised, raiseFault_eq hf]
    rfl

/-! ### The pin (R39) -/

/-- The state with another pin. -/
def withPin (pin : Byte) (s : State) : State := { s with outputPin := pin }

/-- An end of a rule with another pin. -/
def Sub.withPin (pin : Byte) : Sub → Sub
  | .done s => .done (Machine.withPin pin s)
  | .raised c s => .raised c (Machine.withPin pin s)

/-- An operation does the same whatever the pin. -/
def PinBlind (rule : State → Sub) : Prop := ∀ pin s, rule (withPin pin s) = (rule s).withPin pin

theorem andThen_withPin (pin : Byte) (r : Sub) {f : State → State} (hf : ∀ s, f (withPin pin s) = withPin pin (f s)) :
    andThen (r.withPin pin) f = (andThen r f).withPin pin := by
  cases r with
  | done s => exact congrArg Sub.done (hf s)
  | raised c s => rfl

theorem startNote_pinBlind (f d : Half) : PinBlind (startNote f d) := by
  intro pin s
  unfold startNote
  cases ha : s.active with
  | true => simp [withPin, ha, Sub.withPin]
  | false =>
    cases hp : noteParams s.params f d <;> simp [withPin, ha, hp, Sub.withPin, soundNote]

theorem andThen_startNote_withPin (pin : Byte) (f d : Half) (s : State) {g : State → State}
    (hg : ∀ t, g (withPin pin t) = withPin pin (g t)) :
    andThen (startNote f d (withPin pin s)) g = (andThen (startNote f d s) g).withPin pin := by
  rw [startNote_pinBlind, andThen_withPin pin _ hg]

theorem startMelodyNote_pinBlind (now : Time) : PinBlind (startMelodyNote now) := by
  intro pin s
  simp only [startMelodyNote]
  exact andThen_startNote_withPin pin _ _ s fun _ => rfl

theorem startStrike_pinBlind (now : Time) : PinBlind (startStrike now) := by
  intro pin s
  simp only [startStrike]
  exact andThen_startNote_withPin pin _ _ s fun _ => rfl

theorem advance_pinBlind (now : Time) : PinBlind (advance now) := by
  intro pin s
  cases hphase : s.chimePhase with
  | melody =>
    by_cases hindex : s.sequenceIndex.toNat < 16
    · rw [advance_melody hphase hindex, ← startMelodyNote_pinBlind]
      exact advance_melody hphase hindex
    · rw [advance_melody_end hphase (not_lt.1 hindex)]
      exact advance_melody_end hphase (not_lt.1 hindex)
  | pauseBeforeStrikes =>
    rw [advance_pause hphase, ← startStrike_pinBlind]
    exact advance_pause hphase
  | strikes =>
    by_cases hindex : s.strikeIndex < s.strikeCount
    · rw [advance_strikes hphase hindex, ← startStrike_pinBlind]
      exact advance_strikes hphase hindex
    · rw [advance_strikes_end hphase hindex]
      exact advance_strikes_end hphase hindex
  | none =>
    rw [advance_rest (.inl hphase)]
    exact advance_rest (.inl hphase)
  | complete =>
    rw [advance_rest (.inr hphase)]
    exact advance_rest (.inr hphase)

theorem pollCompleted_withPin (now : Time) (pin : Byte) (s : State) :
    pollCompleted now (withPin pin s) = withPin pin (pollCompleted now s) := by
  rw [pollCompleted, pollCompleted, apply_ite (withPin pin)]
  rfl

theorem pollRepair_withPin (now : Time) (pin : Byte) (s : State) :
    pollRepair now (withPin pin s) = withPin pin (pollRepair now s) := by
  rw [pollRepair, pollRepair, apply_ite (withPin pin)]
  rfl

theorem pollNoteEnd_withPin (now : Time) (pin : Byte) (s : State) :
    pollNoteEnd now (withPin pin s) = withPin pin (pollNoteEnd now s) := by
  rw [pollNoteEnd, pollNoteEnd, apply_ite (withPin pin)]
  rfl

theorem pollCycleEnd_withPin (pin : Byte) (s : State) :
    pollCycleEnd (withPin pin s) = withPin pin (pollCycleEnd s) := by
  rw [pollCycleEnd, pollCycleEnd, apply_ite (withPin pin)]
  rfl

theorem pollGapEnd_pinBlind (now : Time) : PinBlind (pollGapEnd now) := by
  intro pin s
  rw [pollGapEnd, pollGapEnd, apply_ite (Sub.withPin pin), ← advance_pinBlind]
  rfl

theorem updateRule_pinBlind : PinBlind updateRule := by
  intro pin s
  show andThen (pollGapEnd s.nowMs (pollNoteEnd s.nowMs (pollRepair s.nowMs (pollCompleted s.nowMs (withPin pin s)))))
    pollCycleEnd = _
  rw [pollCompleted_withPin, pollRepair_withPin, pollNoteEnd_withPin, pollGapEnd_pinBlind,
    andThen_withPin pin _ (pollCycleEnd_withPin pin)]
  rfl

theorem startChimeRule_pinBlind (n : Byte) : PinBlind (startChimeRule n) := by
  intro pin s
  rw [startChimeRule, startChimeRule, apply_ite (Sub.withPin pin), apply_ite (Sub.withPin pin), ← advance_pinBlind]
  rfl

theorem startNoteRule_pinBlind (f d : Half) : PinBlind (startNoteRule f d) := by
  intro pin s
  rw [startNoteRule, startNoteRule, apply_ite (Sub.withPin pin), ← startNote_pinBlind]
  rfl

/-- Only BEGIN, which sets the pin, and READ_REG, which shows it, depend on it. -/
theorem ruleOf_pinBlind {i : Instr} (hbegin : ∀ p, i ≠ .begin p) (hread : ∀ r, i ≠ .readReg r) :
    PinBlind (ruleOf i) := by
  cases i with
  | begin p => exact absurd rfl (hbegin p)
  | readReg r => exact absurd rfl (hread r)
  | setVolume p =>
    intro pin s
    rw [ruleOf, setVolumeRule, setVolumeRule, apply_ite (Sub.withPin pin)]
    rfl
  | startNote f d => exact startNoteRule_pinBlind f d
  | stopNote =>
    intro pin s
    rw [ruleOf, stopNoteRule, stopNoteRule, apply_ite (Sub.withPin pin)]
    rfl
  | update => exact updateRule_pinBlind
  | startChime n => exact startChimeRule_pinBlind n
  | isPlaying => exact fun pin s => rfl

theorem finish_withPin {r : Sub} {t : State} (pin : Byte) (h : finish r = .next t) :
    finish (r.withPin pin) = .next (withPin pin t) := by
  cases r <;> cases h <;> rfl

/-- Settles O40: the checks before a command's rule do not read the pin, and the rule does the same whatever the pin. -/
theorem outputPinHasNoEffect : Obligations.OutputPinHasNoEffect := by
  intro i s t pin hbegin hread h
  show exec i (withPin pin s) = .next (withPin pin t)
  rw [exec_eq_command, command] at h
  rw [exec_eq_command, command, ruleOf_pinBlind hbegin hread]
  show (if s.faultCode ≠ 0#8 then _ else if (needsBegun i && !s.begun) = true then _ else _) = _
  split_ifs at h ⊢
  · exact finish_withPin pin h
  · cases h; rfl
  · exact finish_withPin pin h

/-! ### Power-on (R53, 70_reset_and_hazards.md R250) -/

/-- VOLUME_RESET is a percentage, whichever it is. -/
theorem reset_volume_le : State.reset.volume.toNat ≤ 100 := by
  show (BitVec.ofNat 8 Config.volumeReset.val).toNat ≤ 100
  rw [BitVec.toNat_ofNat]
  exact (Nat.mod_le _ _).trans (Nat.le_of_lt_succ Config.volumeReset.isLt)

/-- Settles O44: at power-on everything is at rest and zero but the volume. -/
theorem powerOnStateMeetsTheInvariant : Obligations.PowerOnStateMeetsTheInvariant :=
  ⟨⟨by decide, reset_volume_le⟩, nofun, nofun, nofun, nofun, by decide, nofun, fun h => h.2 rfl⟩

/-- Settles O49: each value is the one `State.reset` is written with; only the range of the volume needs an argument. -/
theorem powerOnLeavesTheStatedValues : Obligations.PowerOnLeavesTheStatedValues := by
  refine ⟨rfl, rfl, rfl, rfl, reset_volume_le, ?_⟩
  exact ⟨rfl, rfl, rfl, rfl, rfl, rfl, rfl, rfl, rfl, rfl, rfl, rfl, rfl, rfl, rfl, rfl, rfl, rfl, rfl, rfl, rfl, rfl, rfl,
    rfl, rfl, rfl, rfl, rfl, rfl⟩

end Sys2Proof.Machine

/-! SUPPORT. The decoder and the encoder as inverses, what the decoder answers for each word, and what HOST's turn does
with it (30_encoding.md R80-R87, R92, 60_exceptions.md R224). -/

namespace Sys2Proof.Machine

/-! ### Decoding an encoded command (R81-R86) -/

@[simp] theorem opcodeOf_encodeZ (op : Byte) : opcodeOf (encodeZ op) = op := (Laws.encodeZ_fields op).1

@[simp] theorem opcodeOf_encodeB (op imm : Byte) : opcodeOf (encodeB op imm) = op := (Laws.encodeB_fields op imm).1

@[simp] theorem opcodeOf_encodeN (op : Byte) (f d : Half) : opcodeOf (encodeN op f d) = op :=
  (Laws.encodeN_fields op f d).1

@[simp] theorem decodeZ_encodeZ (op : Byte) (i : Instr) : decodeZ (encodeZ op) i = .ok i :=
  if_pos (Laws.encodeZ_fields op).2

@[simp] theorem decodeB_encodeB (op imm : Byte) (i : Byte → Instr) : decodeB (encodeB op imm) i = .ok (i imm) := by
  obtain ⟨-, hreserved, himm⟩ := Laws.encodeB_fields op imm
  rw [decodeB, if_pos hreserved, himm]

@[simp] theorem decodeN_encodeN (op : Byte) (f d : Half) (i : Half → Half → Instr) :
    decodeN (encodeN op f d) i = .ok (i f d) := by
  obtain ⟨-, hfreq, hdur⟩ := Laws.encodeN_fields op f d
  rw [decodeN, hfreq, hdur]

/-- Settles O1: the opcode of the encoded word selects the command's own format, whose fields give the operands back. -/
theorem encodedCommandDecodesToItself : Obligations.EncodedCommandDecodesToItself := by
  intro i
  cases i <;> simp [encode, decode]

/-! ### What the decoder answers for a word (R81-R84, R87) -/

theorem wordWellFormed_encode (i : Instr) : wordWellFormed (encode i) = true := by
  cases i with
  | begin pin => exact Laws.EncodingLegal.begin pin
  | setVolume percent => exact Laws.EncodingLegal.setVolume percent
  | startNote freq dur => exact Laws.EncodingLegal.startNote freq dur
  | stopNote => exact Laws.EncodingLegal.stopNote
  | update => exact Laws.EncodingLegal.update
  | startChime strikes => exact Laws.EncodingLegal.startChime strikes
  | readReg index => exact Laws.EncodingLegal.readReg index
  | isPlaying => exact Laws.EncodingLegal.isPlaying

/-- What an answer of the decoder says of the word's bits: it is the command's own word, its opcode is illegal, or its
opcode is legal and a reserved bit is set. -/
def AnswersFor (w : CommandWord) : Except DecodeError Instr → Prop
  | .ok i => encode i = w
  | .error .illegalOpcode => opcodeLegal w = false
  | .error .reservedBits => opcodeLegal w = true ∧ wordWellFormed w = false

theorem opcodeLegal_iff (w : CommandWord) : opcodeLegal w = true ↔ 1 ≤ w.toNat / 2 ^ 32 ∧ w.toNat / 2 ^ 32 ≤ 8 := by
  simp only [opcodeLegal, Bool.and_eq_true, decide_eq_true_eq]

theorem wordWellFormed_iff (w : CommandWord) :
    wordWellFormed w = true ↔ (1 ≤ w.toNat / 2 ^ 32 ∧ w.toNat / 2 ^ 32 ≤ 8) ∧
      (w.toNat / 2 ^ 32 = 4 ∨ w.toNat / 2 ^ 32 = 5 ∨ w.toNat / 2 ^ 32 = 8 → w.toNat % 2 ^ 32 = 0) ∧
      (w.toNat / 2 ^ 32 = 1 ∨ w.toNat / 2 ^ 32 = 2 ∨ w.toNat / 2 ^ 32 = 6 ∨ w.toNat / 2 ^ 32 = 7 →
        w.toNat % 2 ^ 32 / 2 ^ 8 = 0) := by
  simp only [wordWellFormed, Bool.and_eq_true, opcodeLegal_iff, zeroPayloadLegal, bytePayloadLegal, Bool.or_eq_true,
    Bool.not_eq_true', ← Bool.not_eq_true, List.contains_iff_mem, List.mem_cons, List.not_mem_nil, or_false,
    beq_iff_eq, ← imp_iff_not_or, and_assoc]

theorem decodeZ_answersFor {w : CommandWord} {op : Byte} {i : Instr} (hw : (opcodeOf w).toNat = op.toNat)
    (hop : op.toNat = 4 ∨ op.toNat = 5 ∨ op.toNat = 8) (hi : encode i = encodeZ op) :
    AnswersFor w (decodeZ w i) := by
  rw [Laws.opcodeOf_toNat] at hw
  unfold decodeZ
  split
  case isTrue hz =>
    rw [Laws.payloadOf_eq_zero] at hz
    refine hi.trans (BitVec.eq_of_toNat_eq ?_)
    rw [Laws.encodeZ_toNat]
    omega
  case isFalse hz =>
    rw [Laws.payloadOf_eq_zero] at hz
    refine ⟨(opcodeLegal_iff w).2 (by omega), Bool.eq_false_iff.2 fun h => ?_⟩
    obtain ⟨-, hzero, -⟩ := (wordWellFormed_iff w).1 h
    exact hz (hzero (hw ▸ hop))

theorem decodeB_answersFor {w : CommandWord} {op : Byte} {i : Byte → Instr} (hw : (opcodeOf w).toNat = op.toNat)
    (hop : op.toNat = 1 ∨ op.toNat = 2 ∨ op.toNat = 6 ∨ op.toNat = 7) (hi : ∀ imm, encode (i imm) = encodeB op imm) :
    AnswersFor w (decodeB w i) := by
  rw [Laws.opcodeOf_toNat] at hw
  unfold decodeB
  split
  case isTrue hz =>
    rw [Laws.reservedOf_eq_zero] at hz
    refine (hi _).trans (BitVec.eq_of_toNat_eq ?_)
    rw [Laws.encodeB_toNat, Laws.imm8Of_toNat]
    omega
  case isFalse hz =>
    rw [Laws.reservedOf_eq_zero] at hz
    refine ⟨(opcodeLegal_iff w).2 (by omega), Bool.eq_false_iff.2 fun h => ?_⟩
    obtain ⟨-, -, hzero⟩ := (wordWellFormed_iff w).1 h
    exact hz (hzero (hw ▸ hop))

theorem decodeN_answersFor {w : CommandWord} {op : Byte} {i : Half → Half → Instr}
    (hw : (opcodeOf w).toNat = op.toNat) (hi : ∀ f d, encode (i f d) = encodeN op f d) :
    AnswersFor w (decodeN w i) := by
  rw [Laws.opcodeOf_toNat] at hw
  refine (hi _ _).trans (BitVec.eq_of_toNat_eq ?_)
  rw [Laws.encodeN_toNat, Laws.freqOf_toNat, Laws.durOf_toNat]
  omega

/-- The decoder's answer is right for every word. -/
theorem decode_answersFor (w : CommandWord) : AnswersFor w (decode w) := by
  unfold decode
  split
  case h_1 hw => exact decodeB_answersFor (op := 0x01#8) hw (by decide) fun _ => rfl
  case h_2 hw => exact decodeB_answersFor (op := 0x02#8) hw (by decide) fun _ => rfl
  case h_3 hw => exact decodeN_answersFor (op := 0x03#8) hw fun _ _ => rfl
  case h_4 hw => exact decodeZ_answersFor (op := 0x04#8) hw (by decide) rfl
  case h_5 hw => exact decodeZ_answersFor (op := 0x05#8) hw (by decide) rfl
  case h_6 hw => exact decodeB_answersFor (op := 0x06#8) hw (by decide) fun _ => rfl
  case h_7 hw => exact decodeB_answersFor (op := 0x07#8) hw (by decide) fun _ => rfl
  case h_8 hw => exact decodeZ_answersFor (op := 0x08#8) hw (by decide) rfl
  case h_9 =>
    have hw := Laws.opcodeOf_toNat w
    refine Bool.eq_false_iff.2 fun h => ?_
    rw [opcodeLegal_iff] at h
    simp only [imp_false] at *
    omega

/-- A word that decodes is the word of its command. -/
theorem encode_of_decode {w : CommandWord} {i : Instr} (h : decode w = .ok i) : encode i = w := by
  simpa only [h, AnswersFor] using decode_answersFor w

theorem decode_of_not_opcodeLegal {w : CommandWord} (h : opcodeLegal w = false) :
    decode w = .error .illegalOpcode := by
  have hill : wordWellFormed w = false := by simp [wordWellFormed, h]
  have ha := decode_answersFor w
  match hd : decode w with
  | .ok i => simp [← encode_of_decode hd, wordWellFormed_encode] at hill
  | .error .illegalOpcode => rfl
  | .error .reservedBits => simp [hd, AnswersFor, h] at ha

theorem decode_of_reservedBits {w : CommandWord} (ho : opcodeLegal w = true) (hill : wordWellFormed w = false) :
    decode w = .error .reservedBits := by
  have ha := decode_answersFor w
  match hd : decode w with
  | .ok i => simp [← encode_of_decode hd, wordWellFormed_encode] at hill
  | .error .illegalOpcode => simp [hd, AnswersFor, ho] at ha
  | .error .reservedBits => rfl

/-- Settles O2: the word of a command is legal, and the decoder rejects illegal words only. -/
theorem legalWordsAreExactlyTheDecodedOnes : Obligations.LegalWordsAreExactlyTheDecodedOnes := by
  refine fun w => ⟨⟨fun hw => ?_, ?_⟩, fun _ => encode_of_decode⟩
  · have ha := decode_answersFor w
    match hd : decode w with
    | .ok i => exact ⟨i, rfl⟩
    | .error .illegalOpcode =>
      have ho : opcodeLegal w = false := by simpa [hd, AnswersFor] using ha
      simp [wordWellFormed, ho] at hw
    | .error .reservedBits => simp [hd, AnswersFor, hw] at ha
  · rintro ⟨i, hd⟩
    exact encode_of_decode hd ▸ wordWellFormed_encode i

/-! ### HOST's turn with a word (R84, 60_exceptions.md R224) -/

theorem step_host {s : State} {turns : List Agent} (hs : s.schedule = .host :: turns) :
    step s = hostTurn { s with schedule := turns } := step_scheduled hs

/-- A word that is no command records its fault in a block without one. -/
theorem step_of_noCommand {s : State} {w : CommandWord} {e : DecodeError} {turns : List Agent} {queue : List HostAction}
    (hs : s.schedule = .host :: turns) (hq : s.hostQueue = .word w :: queue) (hf : s.faultCode = 0#8)
    (hd : decode w = .error e) :
    step s = .next { s with schedule := turns, hostQueue := queue, faultCode := faultByte (decodeFault e) } :=
  calc step s
    _ = hostTurn { s with schedule := turns } := step_host hs
    _ = .next (raiseFault (decodeFault e) { s with schedule := turns, hostQueue := queue }) :=
      hostTurn_noCommand hq hd hf
    _ = _ := congrArg Host.Outcome.next (raiseFault_eq (s := { s with schedule := turns, hostQueue := queue }) hf _)

/-- Settles O3: the decoder names the violation, and HOST's turn records its code. -/
theorem wordThatIsNoCommandFaults : Obligations.WordThatIsNoCommandFaults :=
  fun _ _ _ _ hs hq hf =>
    ⟨fun ho => step_of_noCommand hs hq hf (decode_of_not_opcodeLegal ho),
      fun ho hw => step_of_noCommand hs hq hf (decode_of_reservedBits ho hw)⟩

/-- A faulted block takes the words of READ_REG 0x00 to 0x0F and IS_PLAYING only. -/
theorem word_of_hostAccepts {w : CommandWord} {s : State} (hf : s.faultCode ≠ 0#8) (h : hostAccepts w s = true) :
    (w.toNat / 2 ^ 32 = 0x07 ∧ w.toNat % 2 ^ 32 ≤ 0x0F) ∨ w.toNat = 0x08 * 2 ^ 32 := by
  cases hd : decode w with
  | error e => exact absurd ((hostAccepts_of_error hd).1 h) hf
  | ok i =>
    have hl : legalWhenFaulted i = true := ((hostAccepts_of_ok hd).1 h).resolve_left hf
    obtain rfl | ⟨r, hr, rfl⟩ := (legalWhenFaulted_iff i).1 hl
    · exact .inr (encode_of_decode hd ▸ Laws.encodeZ_toNat 0x08#8)
    · have hw : w.toNat = 0x07 * 2 ^ 32 + r.toNat := encode_of_decode hd ▸ Laws.encodeB_toNat 0x07#8 r
      exact .inl (by omega)

/-- Settles O7: the words a faulted block takes are the two reads', so HOST's turn with another word is stuck. -/
theorem stuckHostLeavesTheBlockAlone : Obligations.StuckHostLeavesTheBlockAlone := by
  intro s w turns queue hs hq hf hread hplaying
  have ha : hostAccepts w { s with schedule := turns } = false :=
    Bool.eq_false_iff.2 fun h => (word_of_hostAccepts hf h).elim hread hplaying
  exact (step_host hs).trans (hostTurn_stuck hq ha)

/-- A block without a fault answers every command with a next state. -/
theorem exec_answers_of_faultFree {s : State} (hf : s.faultCode = 0#8) (i : Instr) : ∃ t, exec i s = .next t := by
  rw [exec_eq_command, command, if_neg (not_not.2 hf)]
  split
  · exact ⟨_, rfl⟩
  · exact finish_next _

/-- Settles O38: without a fault every command is answered, and in a faulted block the reads alone are. -/
theorem onlyAFaultedBlockTurnsCommandsAway : Obligations.OnlyAFaultedBlockTurnsCommandsAway := by
  intro s i
  by_cases hf : s.faultCode = 0#8
  · obtain ⟨t, ht⟩ := exec_answers_of_faultFree hf i
    simp [ht, hf]
  · obtain ⟨t, ht⟩ := finish_next (ruleOf i s)
    rw [exec_of_faulted hf, ht, ← not_or, ← legalWhenFaulted_iff]
    by_cases hl : legalWhenFaulted i = true <;> simp [hl, hf]

/-- Settles O4: the ten words are evaluated, and a word that is no command records its fault. -/
theorem workedEncodingsDecode : Obligations.WorkedEncodingsDecode :=
  ⟨rfl, rfl, rfl, rfl, rfl, rfl, rfl, rfl, fun _ hf =>
    ⟨congrArg Host.Outcome.next (raiseFault_eq hf .reservedBits),
      congrArg Host.Outcome.next (raiseFault_eq hf .illegalOpcode)⟩⟩

/-- Settles O5: HOST's turn gives the block the word, which takes it as its command. -/
theorem hostTurnRunsTheDecodedCommand : Obligations.HostTurnRunsTheDecodedCommand := by
  intro s w i turns queue hs hq hd hl
  rw [← legalWhenFaulted_iff] at hl
  exact (step_host hs).trans (hostTurn_command hq hd hl)

/-- Settles O37: the four commands need BEGIN. -/
theorem commandsBeforeBeginFault : Obligations.CommandsBeforeBeginFault := by
  intro s i hf hb hi
  have hn : needsBegun i = true := by obtain rfl | rfl | ⟨f, d, rfl⟩ | ⟨n, rfl⟩ := hi <;> rfl
  rw [exec_of_notBegun hf hn hb, raiseFault_eq hf]
  rfl

end Sys2Proof.Machine

/-! SUPPORT. The scaler, the oscillator's commands, the first note of START_CHIME, and the configuration they run with
(40_oscillator.md R100-R112, 42_sequencer.md R150-R152, R158, 60_exceptions.md R228). -/

namespace Sys2Proof.Machine

/-! ### The scaler (R12, R102) -/

theorem clamp_eq_max_min {lo hi : Int} (h : lo ≤ hi) (v : Int) : clamp v lo hi = max lo (min hi v) := by
  unfold clamp
  split_ifs <;> omega

/-- A clamped value is a byte, so nothing wraps: the scaler's output is the clamped sum itself. -/
theorem scale_toNat {P : Params} (h : P.outMin.toNat ≤ P.outMax.toNat) (sample amp : Byte) :
    ((scale P sample amp).toNat : Int) = max (P.outMin.toNat : Int)
      (min (P.outMax.toNat : Int) (divideBy64 P.scaleDiv (sample.toInt * amp.toNat) + P.neutral.toNat)) := by
  have hmax := P.outMax.isLt
  rw [scale, clamp_eq_max_min (Int.ofNat_le.2 h), BitVec.toNat_ofInt]
  omega

theorem divideBy64_floor (p : Int) : divideBy64 .floor p = p / 64 := Int.fdiv_eq_ediv_of_nonneg p (by decide)

theorem divideBy64_mono (mode : ScaleDiv) {p q : Int} (h : p ≤ q) : divideBy64 mode p ≤ divideBy64 mode q := by
  cases mode with
  | trunc => exact Int.tdiv_le_tdiv (by decide) h
  | floor =>
    rw [divideBy64_floor, divideBy64_floor]
    exact Int.ediv_le_ediv (by decide) h

theorem divideBy64_mul (mode : ScaleDiv) (k : Int) : divideBy64 mode (64 * k) = k := by
  cases mode with
  | trunc => exact Int.mul_tdiv_cancel_left k (by decide)
  | floor =>
    rw [divideBy64_floor]
    exact Int.mul_ediv_cancel_left k (by decide)

/-- At most 64 as amplitude scales no sample up (R102). -/
theorem divideBy64_abs_le {sample amp : Byte} (mode : ScaleDiv) (hlo : -91 ≤ sample.toInt) (hhi : sample.toInt ≤ 91)
    (hamp : amp.toNat ≤ 64) :
    -91 ≤ divideBy64 mode (sample.toInt * amp.toNat) ∧ divideBy64 mode (sample.toInt * amp.toNat) ≤ 91 := by
  have hpos : (0 : Int) ≤ amp.toNat := Int.natCast_nonneg _
  have hmin := mul_le_mul_of_nonneg_right hlo hpos
  have hmax := mul_le_mul_of_nonneg_right hhi hpos
  exact ⟨(divideBy64_mul mode (-91)).ge.trans (divideBy64_mono mode (by omega)),
    (divideBy64_mono mode (by omega)).trans_eq (divideBy64_mul mode 91)⟩

/-- Settles O12: the output is the clamped sum, and at the default levels the quotient is bounded between two multiples
of 64. -/
theorem scalerClampsAndNeverWraps : Obligations.ScalerClampsAndNeverWraps := by
  intro P sample amp h
  have hscale := scale_toNat h sample amp
  refine ⟨fun htrunc => by rw [hscale, htrunc]; rfl, fun hfloor => by rw [hscale, hfloor, divideBy64_floor], ?_⟩
  intro hneutral hmin hmax hlo hhi
  simp only [hneutral, hmin, hmax, BitVec.toNat_ofNat, Nat.reducePow, Nat.reduceMod] at hscale
  refine ⟨fun hamp => BitVec.eq_of_toNat_eq ?_, fun hamp => ?_, fun hamp hpeak => BitVec.eq_of_toNat_eq ?_⟩
  · have hq : divideBy64 P.scaleDiv (sample.toInt * amp.toNat) = 0 := by
      simpa [hamp] using divideBy64_mul P.scaleDiv 0
    rw [BitVec.toNat_ofNat]
    omega
  · have hq := divideBy64_abs_le P.scaleDiv hlo hhi hamp
    omega
  · have hq : 129 ≤ divideBy64 P.scaleDiv (sample.toInt * amp.toNat) :=
      (divideBy64_mul P.scaleDiv 129).ge.trans (divideBy64_mono P.scaleDiv (by rw [hpeak]; omega))
    rw [BitVec.toNat_ofNat]
    omega

/-! ### Note parameters at 44000 Hz (R103) -/

/-- At 44000 Hz each fault of a note is a bound on one operand. -/
theorem noteParams_of_44000 {P : Params} (h : P.sampleRate = 44000) (f d : Half) :
    noteParams P f d =
      if f.toNat = 0 then .error .zeroFrequency
      else if 44000 ≤ f.toNat then .error .incrementOverflow
      else if d.toNat = 0 then .error .zeroDuration
      else .ok (BitVec.ofNat 32 (noteIncrement P f), BitVec.ofNat 32 (44 * d.toNat)) := by
  have hzero : f = 0#16 ↔ f.toNat = 0 := BitVec.toNat_inj.symm
  have hfits : ¬2 ^ 32 ≤ 44 * d.toNat := by omega
  simp only [noteParams, noteTarget_of_44000 h, noteIncrement_overflow_iff_of_44000 h, hzero, hfits, if_false,
    Nat.mul_eq_zero, OfNat.ofNat_ne_zero, false_or]

/-- Below 44000 Hz the increment fits its word. -/
theorem noteIncrement_toNat_of_44000 {P : Params} (h : P.sampleRate = 44000) {f : Half} (hf : f.toNat < 44000) :
    (BitVec.ofNat 32 (noteIncrement P f)).toNat = (2 * (f.toNat * 2 ^ 32) + 44000) / 88000 := by
  have hlt : noteIncrement P f < 2 ^ 32 := not_le.1 fun hle =>
    absurd ((noteIncrement_overflow_iff_of_44000 h f).1 hle) (not_le.2 hf)
  rw [BitVec.toNat_ofNat, Nat.mod_eq_of_lt hlt, noteIncrement, roundDiv, h]

/-! ### The rules of the oscillator's commands (R110-R112) -/

/-- A rule's raise in a block without a fault records the code. -/
theorem finish_raised_of_faultFree {s : State} (hf : s.faultCode = 0#8) (c : FaultCode) :
    finish (.raised c s) = .next { s with faultCode := faultByte c } := by rw [finish_raised, raiseFault_eq hf]

/-- A command of a running block whose rule raises before it writes records the code and changes nothing else (R224). -/
theorem exec_of_raised (i : Instr) {s : State} {c : FaultCode} (hrun : running s) (h : ruleOf i s = .raised c s) :
    exec i s = .next { s with faultCode := faultByte c } := by
  obtain ⟨hfault, hbegun⟩ := hrun
  rw [exec_of_running hfault hbegun, h, finish_raised_of_faultFree hfault]

theorem setVolumeRule_of_le {p : Byte} (h : p.toNat ≤ 100) (s : State) :
    setVolumeRule p s = .done { s with volume := p } := by simp [setVolumeRule, volumeInRange, h]

theorem setVolumeRule_of_gt {p : Byte} (h : 100 < p.toNat) (s : State) :
    setVolumeRule p s = .raised .volumeRange s := by simp [setVolumeRule, volumeInRange, h]

theorem stopNoteRule_of_idle {s : State} (h : s.playbackState = .idle) : stopNoteRule s = .done (stopNote s) :=
  if_neg (not_not.2 h)

theorem stopNoteRule_of_cycle {s : State} (h : s.playbackState ≠ .idle) :
    stopNoteRule s = .raised .hostNoteWhileSequencing s := if_pos h

theorem startNoteRule_of_idle {s : State} (h : s.playbackState = .idle) (f d : Half) :
    startNoteRule f d s = startNote f d s := if_neg (not_not.2 h)

theorem startNoteRule_of_cycle {s : State} (h : s.playbackState ≠ .idle) (f d : Half) :
    startNoteRule f d s = .raised .hostNoteWhileSequencing s := if_pos h

theorem startNoteRule_of_active {s : State} (hidle : s.playbackState = .idle) (hactive : s.active = true) (f d : Half) :
    startNoteRule f d s = .raised .noteOverlap s := by rw [startNoteRule_of_idle hidle, startNote, if_pos hactive]

theorem startNoteRule_of_error {f d : Half} {s : State} {c : FaultCode} (hidle : s.playbackState = .idle)
    (hactive : s.active = false) (hp : noteParams s.params f d = .error c) : startNoteRule f d s = .raised c s := by
  simp [startNoteRule_of_idle hidle, startNote, hactive, hp]

/-- Settles O18: the rule of START_NOTE starts the note, and its parameters at 44000 Hz are the ones stated. -/
theorem startNoteSoundsTheNote : Obligations.StartNoteSoundsTheNote := by
  intro s f d ⟨hfault, hbegun⟩ hidle hactive hrate hfpos hflt hdpos
  refine ⟨BitVec.ofNat 32 (noteIncrement s.params f), noteIncrement_toNat_of_44000 hrate hflt, ?_⟩
  have hparams := noteParams_of_44000 hrate f d
  rw [if_neg hfpos.ne', if_neg (not_le.2 hflt), if_neg hdpos.ne'] at hparams
  rw [exec_of_running hfault hbegun, ruleOf, startNoteRule_of_idle hidle, startNote_ok hactive hparams]
  rfl

/-- Settles O19: the checks of the rule, of `startNote` and of `noteParams` come in the order of R228. -/
theorem startNoteReportsTheFirstFault : Obligations.StartNoteReportsTheFirstFault := by
  intro s f d hrun hrate
  have hparams := noteParams_of_44000 hrate f d
  refine ⟨fun hcycle => ?_, fun hidle hactive => ?_, fun hidle hactive hf => ?_, fun hidle hactive hf => ?_,
    fun hidle hactive hfpos hflt hd => ?_⟩
  · exact exec_of_raised (.startNote f d) hrun (startNoteRule_of_cycle hcycle f d)
  · exact exec_of_raised (.startNote f d) hrun (startNoteRule_of_active hidle hactive f d)
  · rw [if_pos hf] at hparams
    exact exec_of_raised (.startNote f d) hrun (startNoteRule_of_error hidle hactive hparams)
  · rw [if_neg (by omega), if_pos hf] at hparams
    exact exec_of_raised (.startNote f d) hrun (startNoteRule_of_error hidle hactive hparams)
  · rw [if_neg hfpos.ne', if_neg (not_le.2 hflt), if_pos hd] at hparams
    exact exec_of_raised (.startNote f d) hrun (startNoteRule_of_error hidle hactive hparams)

/-- Settles O17: SET_VOLUME needs no BEGIN, and its rule is the range check and one write. -/
theorem setVolumeWritesOnlyTheVolume : Obligations.SetVolumeWritesOnlyTheVolume := by
  refine ⟨fun _ => rfl, fun s p hfault => ?_⟩
  rw [exec_of_free hfault rfl, ruleOf]
  refine ⟨fun hle => ?_, fun hgt => ?_⟩
  · rw [setVolumeRule_of_le hle, finish_done]
  · rw [setVolumeRule_of_gt hgt, finish_raised_of_faultFree hfault]
    rfl

/-- Settles O20: the rule of STOP_NOTE reads the playback state alone, and BEGIN is checked before it. -/
theorem stopNoteSilencesAtOnce : Obligations.StopNoteSilencesAtOnce := by
  refine ⟨rfl, fun s hfault => ⟨fun hbegun hidle => ?_, fun hbegun hcycle => ?_, fun hbegun => ?_⟩⟩
  · rw [exec_of_running hfault hbegun, ruleOf, stopNoteRule_of_idle hidle]
    rfl
  · exact exec_of_raised .stopNote ⟨hfault, hbegun⟩ (stopNoteRule_of_cycle hcycle)
  · exact commandsBeforeBeginFault s _ hfault hbegun (.inr (.inl rfl))

/-! ### The first note of START_CHIME (42_sequencer.md R158) -/

/-- At rest a legal count enters Melody and starts the note at index 0. -/
theorem startChimeRule_of_idle {s : State} {n : Byte} (hn : 1 ≤ n.toNat ∧ n.toNat ≤ 12)
    (hidle : s.playbackState = .idle) :
    startChimeRule n s = startMelodyNote s.nowMs
      { s with chimePhase := .melody, sequenceIndex := 0#32, strikeCount := n.setWidth 32 } := by
  rw [startChimeRule, if_neg (by simp [(strikesInRange_iff n).2 hn]), if_neg (not_not.2 hidle),
    advance_melody rfl (by simp)]

/-- Settles O23: the rule of START_CHIME starts melody note 0, whose parameters are legal by hypothesis. -/
theorem startChimeStartsTheFirstNote : Obligations.StartChimeStartsTheFirstNote := by
  intro s n inc tgt ⟨hfault, hbegun⟩ hidle hactive hmin hmax hparams
  rw [exec_of_running hfault hbegun, ruleOf, startChimeRule_of_idle ⟨hmin, hmax⟩ hidle,
    startMelodyNote_ok (inc := inc) (tgt := tgt)]
  · rfl
  · exact hactive
  · exact hparams

/-! ### The power-on configuration (R5, R100, R150-R152, R201) -/

/-- Settles O47: the ROM contents are restricted to legal ones, and each open parameter is built within its bounds. -/
theorem powerOnConfigurationIsLegal : Obligations.PowerOnConfigurationIsLegal := by
  have hwave : waveLegal Config.waveTable := restrict_legal waveLegal _ _ standInWave_legal
  have hmelody : melodyLegal Config.melodyRom := restrict_legal melodyLegal _ _ standInMelody_legal
  have hgap : Config.gapNote < Config.gapPhrase := Nat.lt_add_right _ (Nat.lt_succ_self _)
  exact ⟨⟨hwave, hmelody⟩, by decide, hgap, Config.freeQuietStart.isLt, Config.freeQuietEnd.isLt, Nat.le_add_right 1 _⟩

end Sys2Proof.Machine

/-! SUPPORT. TICK's turn (41_sample_tick.md R130-R135), the ticks of one note (R136), and the end of every note under
fair ticks (R139, 70_reset_and_hazards.md R262). -/

namespace Sys2Proof.Machine

/-! ### TICK's turn (R130-R135) -/

theorem step_tick {s : State} {turns : List Agent} (hs : s.schedule = .tick :: turns) :
    step s = tickTurn { s with schedule := turns } := step_scheduled hs

theorem tickEnabled_iff (s : State) : tickEnabled s = true ↔ running s := by
  simp [tickEnabled, running, and_comm]

theorem tickTurn_of_running {s : State} (h : running s) : tickTurn s = .next (tick s) := by
  rw [tickTurn, if_pos ((tickEnabled_iff s).2 h)]

theorem tickTurn_of_not_running {s : State} (h : ¬running s) : tickTurn s = .next s := by
  rw [tickTurn, if_neg ((tickEnabled_iff s).not.2 h)]

/-- Settles O8: a block that has not begun or holds a fault is not running, so TICK has no step in it. -/
theorem tickNeedsABegunFaultFreeBlock : Obligations.TickNeedsABegunFaultFreeBlock := by
  intro s turns hs hoff
  have hrun : ¬running s := fun ⟨hfault, hbegun⟩ => hoff.elim (by simp [hbegun]) (absurd hfault)
  exact (step_tick hs).trans (tickTurn_of_not_running hrun)

/-- Bits 31:26 of an accumulator value are its quotient by 2^26 (40_oscillator.md R101). -/
theorem tableIndex_toNat (a : Word) : (tableIndex a).toNat = a.toNat / 2 ^ 26 := by
  rw [tableIndex, BitVec.extractLsb'_toNat, Nat.shiftRight_eq_div_pow]
  omega

/-- Settles O11: TICK's turn in a running block is the tick, which has three cases. -/
theorem tickFollowsItsRule : Obligations.TickFollowsItsRule := by
  intro s turns hs hrun
  have hstep : step s = .next (tick { s with schedule := turns }) := (step_tick hs).trans (tickTurn_of_running hrun)
  exact ⟨fun hactive => hstep.trans (congrArg _ (tick_inactive hactive)),
    fun hactive hstop => hstep.trans (congrArg _ (tick_stop hactive hstop)),
    fun hactive htone => ⟨(tableIndex (s.phaseAccumulator + s.phaseIncrement)).toFin, _, tableIndex_toNat _, rfl,
      hstep.trans (congrArg _ (tick_tone hactive (not_le.2 htone)))⟩⟩

/-! ### The ticks of one note (R132, R133, R136) -/

/-- `t` is `s`, at whose count 0 a note starts, after `k` tone ticks. -/
structure TonesTaken (s : State) (k : Nat) (t : State) : Prop where
  active : t.active = true
  completedFlag : t.completedFlag = s.completedFlag
  count : t.sampleCount.toNat = k
  target : t.sampleTarget = s.sampleTarget
  phase : t.phaseAccumulator.toNat = (s.phaseAccumulator.toNat + k * s.phaseIncrement.toNat) % 2 ^ 32
  increment : t.phaseIncrement = s.phaseIncrement
  trace : t.outTrace.length = s.outTrace.length + k
  params : t.params = s.params

theorem TonesTaken.zero {s : State} (hactive : s.active = true) (hcount : s.sampleCount = 0#32) :
    TonesTaken s 0 s where
  active := hactive
  completedFlag := rfl
  count := by simp [hcount]
  target := rfl
  phase := by rw [Nat.zero_mul, add_zero, Nat.mod_eq_of_lt s.phaseAccumulator.isLt]
  increment := rfl
  trace := rfl
  params := rfl

/-- The next tick's count: below its target a count does not wrap. -/
theorem TonesTaken.count_add_one {s t : State} {k : Nat} (h : TonesTaken s k t) (hk : k < s.sampleTarget.toNat) :
    (t.sampleCount + 1#32).toNat = k + 1 := by
  have hcount := h.count
  bv_omega

/-- Below the target the next tick is a tone tick (R133). -/
theorem TonesTaken.tone {s t : State} {k : Nat} (h : TonesTaken s k t) (hk : k + 1 < s.sampleTarget.toNat) :
    TonesTaken s (k + 1) (tick t) := by
  have hcount := h.count_add_one (Nat.lt_of_succ_lt hk)
  have htone : ¬t.sampleTarget ≤ t.sampleCount + 1#32 := by
    rw [BitVec.le_def, hcount, h.target]
    exact not_le.2 hk
  rw [tick_tone h.active htone]
  exact {
    active := h.active
    completedFlag := h.completedFlag
    count := hcount
    target := h.target
    phase := by
      simp only [toneSample_phaseAccumulator, countSample_phaseAccumulator, countSample_phaseIncrement,
        BitVec.toNat_add, h.phase, h.increment, Nat.mod_add_mod, Nat.add_mul, one_mul, add_assoc]
    increment := h.increment
    trace := by simp [h.trace, add_assoc]
    params := h.params }

/-- At the target it is the stop tick (R132). -/
theorem TonesTaken.stop {s t : State} {k : Nat} (h : TonesTaken s k t) (hk : s.sampleTarget.toNat = k + 1) :
    tick t = failsafeStop (countSample t) ∧ t.sampleCount + 1#32 = s.sampleTarget := by
  have hcount : t.sampleCount + 1#32 = s.sampleTarget :=
    BitVec.eq_of_toNat_eq ((h.count_add_one (by omega)).trans hk.symm)
  exact ⟨tick_stop h.active (by rw [hcount, h.target]; exact BitVec.le_refl _), hcount⟩

theorem tonesTaken_iterate {s : State} (hactive : s.active = true) (hcount : s.sampleCount = 0#32) :
    ∀ k, k < s.sampleTarget.toNat → TonesTaken s k (tick^[k] s)
  | 0, _ => .zero hactive hcount
  | k + 1, hk => by
    rw [Function.iterate_succ_apply']
    exact (tonesTaken_iterate hactive hcount k (Nat.lt_of_succ_lt hk)).tone hk

/-- Once a note is over no tick changes anything. -/
theorem iterate_tick_of_inactive {s : State} {n k : Nat} (h : (tick^[n] s).active = false) (hk : n ≤ k) :
    tick^[k] s = tick^[n] s := by
  obtain ⟨j, rfl⟩ := Nat.exists_eq_add_of_le' hk
  rw [Function.iterate_add_apply]
  exact Function.iterate_fixed (tick_inactive h) j

/-- Settles O13: the tone ticks by induction on their number; the stop tick, then, reaches the target. -/
theorem noteEndsAfterExactlyItsTarget : Obligations.NoteEndsAfterExactlyItsTarget := by
  intro s hactive hcount hpos
  have htones := tonesTaken_iterate hactive hcount
  obtain ⟨k, hk⟩ := Nat.exists_eq_add_one.2 hpos
  have hlast : TonesTaken s k (tick^[k] s) := htones k (by omega)
  obtain ⟨hstop, htarget⟩ := hlast.stop hk
  rw [← Function.iterate_succ_apply' tick] at hstop
  simp only [hk, Nat.add_sub_cancel, hstop]
  refine ⟨fun j hj => ?_, ⟨rfl, rfl, htarget, congrArg Params.neutral hlast.params, rfl, ?_⟩, fun j hj => ?_⟩
  · have h := htones j (hk ▸ hj)
    exact ⟨h.active, h.completedFlag, h.count, h.phase, h.trace⟩
  · simp [hlast.params]
  · rw [iterate_tick_of_inactive (by rw [hstop]; rfl) hj, hstop]

/-! ### A turn restarts no sounding note (R139) -/

/-- The note that sounds in `s` is over in `t`, or goes on with the same count and target. -/
def NoteNotRestarted (s t : State) : Prop :=
  t.active = false ∨ (t.sampleCount = s.sampleCount ∧ t.sampleTarget = s.sampleTarget)

theorem NoteNotRestarted.refl (s : State) : NoteNotRestarted s s := .inr ⟨rfl, rfl⟩

/-- A gap of length 0 is one outside the cycle (42_sequencer.md R153). -/
theorem chimePhase_of_gapLength_eq_zero {s : State} (hgaps : gapsInRange s.params) (h : gapLength s = 0) :
    s.chimePhase = .none ∨ s.chimePhase = .complete := by
  obtain ⟨⟨hnote, -⟩, ⟨hphrase, -⟩, ⟨hpause, -⟩, hstrike, -⟩ := hgaps
  cases hphase : s.chimePhase with
  | none => exact .inl rfl
  | complete => exact .inr rfl
  | melody =>
    simp only [gapLength, hphase] at h
    split at h <;> omega
  | pauseBeforeStrikes | strikes =>
    simp only [gapLength, hphase] at h
    omega

/-- A rule that starts a note over a sounding one does not end without a fault (R105). -/
theorem startMelodyNote_ne_done {now : Time} {s t : State} (hactive : s.active = true) :
    startMelodyNote now s ≠ .done t := by
  obtain ⟨c, h⟩ | ⟨hoff, -⟩ := startMelodyNote_cases now s
  · simp [h]
  · simp [hactive] at hoff

theorem startStrike_ne_done {now : Time} {s t : State} (hactive : s.active = true) :
    startStrike now s ≠ .done t := by
  obtain ⟨c, h⟩ | ⟨hoff, -⟩ := startStrike_cases now s
  · simp [h]
  · simp [hactive] at hoff

/-- So `advance`, while a note sounds, enters the pause or returns to Idle (42_sequencer.md R155). -/
theorem advance_noteNotRestarted {now : Time} {s t : State} (hactive : s.active = true)
    (h : advance now s = .done t) : NoteNotRestarted s t := by
  cases hphase : s.chimePhase with
  | melody =>
    by_cases hindex : s.sequenceIndex.toNat < 16
    · rw [advance_melody hphase hindex] at h
      exact absurd h (startMelodyNote_ne_done hactive)
    · rw [advance_melody_end hphase (not_lt.1 hindex)] at h
      cases h
      exact .inr ⟨rfl, rfl⟩
  | pauseBeforeStrikes =>
    rw [advance_pause hphase] at h
    exact absurd h (startStrike_ne_done hactive)
  | strikes =>
    by_cases hindex : s.strikeIndex < s.strikeCount
    · rw [advance_strikes hphase hindex] at h
      exact absurd h (startStrike_ne_done hactive)
    · rw [advance_strikes_end hphase hindex] at h
      cases h
      exact .inl rfl
  | none | complete =>
    rw [advance_rest (by simp [hphase])] at h
    cases h
    exact .inl rfl

theorem pollGapEnd_noteNotRestarted {now : Time} {s t : State} (hactive : s.active = true)
    (h : pollGapEnd now s = .done t) : NoteNotRestarted s t := by
  rw [pollGapEnd] at h
  split at h
  next => exact advance_noteNotRestarted hactive h
  next => cases h; exact .refl s

/-- Step 4 of UPDATE, in a gap just entered, starts no note: a gap of the cycle is not over at once (R165, R170). -/
theorem pollGapEnd_gapEntered {now : Time} {s t : State} (hgaps : gapsInRange s.params)
    (h : pollGapEnd now (gapEntered now s) = .done t) : t.active = false := by
  by_cases hdue : gapLength (gapEntered now s) = 0
  · rw [pollGapEnd_due rfl (by rw [hdue]; exact Nat.zero_le _),
      advance_rest (s := gapEntered now s) (chimePhase_of_gapLength_eq_zero hgaps hdue)] at h
    cases h
    rfl
  · rw [pollGapEnd_early (by rw [elapsed_gapEntered]; exact Nat.pos_of_ne_zero hdue)] at h
    cases h
    rfl

theorem andThen_eq_done {r : Sub} {f : State → State} {t : State} (h : andThen r f = .done t) :
    ∃ u, r = .done u ∧ t = f u := by
  cases r with
  | done u => cases h; exact ⟨u, rfl, rfl⟩
  | raised c u => cases h

theorem NoteNotRestarted.pollCycleEnd {s u : State} (h : NoteNotRestarted s u) :
    NoteNotRestarted s (Machine.pollCycleEnd u) := by
  unfold Machine.pollCycleEnd
  split <;> exact h

/-- UPDATE starts no note while one sounds, nor in the poll that ends one (R161-R166, R170). -/
theorem updateRule_noteNotRestarted {s t : State} (hgaps : gapsInRange s.params) (hactive : s.active = true)
    (h : updateRule s = .done t) : NoteNotRestarted s t := by
  obtain ⟨-, -, -, hrule⟩ | ⟨-, hrule⟩ := updateRule_cases s
  · obtain ⟨u, hu, rfl⟩ := andThen_eq_done (hrule.symm.trans h)
    exact .pollCycleEnd (pollGapEnd_noteNotRestarted hactive hu)
  · obtain ⟨u, hu, rfl⟩ := andThen_eq_done (hrule.symm.trans h)
    exact .pollCycleEnd (.inl (pollGapEnd_gapEntered (s := { s with completedFlag := false }) hgaps hu))

/-- No command whose rule ends without a fault restarts a sounding note (60_exceptions.md R221, NOTE_OVERLAP). -/
theorem ruleOf_noteNotRestarted {i : Instr} {s t : State} (hgaps : gapsInRange s.params) (hactive : s.active = true)
    (h : ruleOf i s = .done t) : NoteNotRestarted s t := by
  have hend := ruleOf_ruleEnd i s
  rw [h] at hend
  cases hend with
  | note _ _ _ hoff => simp [hactive] at hoff
  | stop => exact .inl rfl
  | firstNote n hn hidle =>
    rw [ruleOf, startChimeRule_of_idle hn hidle] at h
    exact absurd h (startMelodyNote_ne_done hactive)
  | polled => exact updateRule_noteNotRestarted hgaps hactive h
  | gapEnd => exact updateRule_noteNotRestarted hgaps hactive h
  | _ => exact .inr ⟨rfl, rfl⟩

/-- Nor does a turn of HOST that leaves the block without a fault. -/
theorem hostTurn_noteNotRestarted {s t : State} (hgaps : gapsInRange s.params) (hactive : s.active = true)
    (h : hostTurn s = .next t) (ht : t.faultCode = 0#8) : NoteNotRestarted s t := by
  obtain rfl | ⟨_, queue, _, -, -, -, hexec⟩ | ⟨_, _, _, -, -, -, rfl⟩ | ⟨_, _, _, _, -, rfl⟩ |
    ⟨_, _, -, rfl⟩ := hostTurn_next_cases h
  · exact .refl _
  · exact ruleOf_noteNotRestarted (s := { s with hostQueue := queue }) hgaps hactive (exec_next_of_faultFree hexec ht)
  · exact absurd ht (raiseFault_faulted _ _)
  · rw [maybeChime_eq]; exact .refl s
  · rw [chimeIfIdle_eq]; exact .refl s

theorem clockTurn_noteNotRestarted {s t : State} (h : clockTurn s = .next t) : NoteNotRestarted s t := by
  obtain ⟨rfl, -⟩ := clockTurn_next_cases h
  exact .refl s

/-! ### Every note ends (R139, R262) -/

/-- The tone ticks still to come of a sounding note, also of one whose count has to wrap first. -/
def tonesLeft (s : State) : Nat := (s.sampleTarget - (s.sampleCount + 1#32)).toNat

theorem tick_tonesLeft {s : State} (hactive : s.active = true) :
    (tick s).active = false ∨ tonesLeft (tick s) < tonesLeft s := by
  obtain ⟨hoff, -⟩ | ⟨-, -, h⟩ | ⟨-, htone, h⟩ := tick_cases s
  · simp [hactive] at hoff
  · exact .inl (h ▸ rfl)
  · refine .inr ?_
    simp only [h, tonesLeft, toneSample_sampleTarget, toneSample_sampleCount, countSample_sampleTarget,
      countSample_sampleCount]
    bv_omega

/-- A turn in a run without a fault ends the note or leaves it no more tone ticks than it had, and TICK's fewer. -/
theorem agentTurn_tonesLeft {a : Agent} {s t : State} (hrun : running s) (hgaps : gapsInRange s.params)
    (hactive : s.active = true) (h : agentTurn a s = .next t) (ht : t.faultCode = 0#8) (hon : t.active = true) :
    tonesLeft t ≤ tonesLeft s ∧ (a = .tick → tonesLeft t < tonesLeft s) := by
  have hkept (hnote : NoteNotRestarted s t) : tonesLeft t ≤ tonesLeft s := by
    obtain ⟨hcount, htarget⟩ := hnote.resolve_left (by simp [hon])
    rw [tonesLeft, tonesLeft, hcount, htarget]
  cases a with
  | tick =>
    rw [agentTurn_tick, tickTurn_of_running hrun] at h
    cases h
    have hless := (tick_tonesLeft hactive).resolve_left (by simp [hon])
    exact ⟨hless.le, fun _ => hless⟩
  | host => exact ⟨hkept (hostTurn_noteNotRestarted hgaps hactive h ht), nofun⟩
  | clock => exact ⟨hkept (clockTurn_noteNotRestarted h), nofun⟩

/-- A sequence of naturals that never grows from `n` on and falls again and again does not exist. -/
theorem not_falls_again_and_again {f : Nat → Nat} {n : Nat} (hle : ∀ m ≥ n, f (m + 1) ≤ f m)
    (hlt : ∀ m ≥ n, ∃ k ≥ m, f (k + 1) < f k) : False := by
  obtain ⟨j, hrest⟩ := WellFoundedGT.monotone_chain_condition (α := Natᵒᵈ)
    ⟨fun j => f (j + n), antitone_add_nat_of_succ_le hle⟩
  obtain ⟨k, hk, hfall⟩ := hlt (j + n) (Nat.le_add_left n j)
  obtain ⟨i, rfl⟩ := Nat.exists_eq_add_of_le' ((Nat.le_add_left n j).trans hk)
  have hnow : f (j + n) = f (i + n) := hrest i (by omega)
  have hnext : f (j + n) = f (i + 1 + n) := hrest (i + 1) (by omega)
  rw [Nat.add_right_comm] at hnext
  omega

/-- Settles O14: were the note active for ever, its tone ticks to come would never grow and fall at every TICK. -/
theorem everyNoteEndsIfTicksGoOn : Obligations.EveryNoteEndsIfTicksGoOn := by
  intro state who queue hruns hok hticks n _
  by_contra hnever
  have hon : ∀ m ≥ n, (state m).active = true := fun m hm => by
    by_contra hoff
    exact hnever ⟨m, hm, Bool.eq_false_iff.2 hoff⟩
  have hturn : ∀ m ≥ n, tonesLeft (state (m + 1)) ≤ tonesLeft (state m) ∧
      (who m = .tick → tonesLeft (state (m + 1)) < tonesLeft (state m)) := fun m hm =>
    agentTurn_tonesLeft (s := { state m with hostQueue := queue m }) (hok m).1 (hok m).2 (hon m hm) (hruns m)
      (hok (m + 1)).1.1 (hon (m + 1) (by omega))
  refine not_falls_again_and_again (f := fun m => tonesLeft (state m)) (fun m hm => (hturn m hm).1) fun m hm => ?_
  obtain ⟨k, hk, htick⟩ := hticks m
  exact ⟨k, hk, (hturn k (hm.trans hk)).2 htick⟩

end Sys2Proof.Machine

/-! SUPPORT. The stops of a step (00_scope.md R9), the gaps (42_sequencer.md R153, R154), and the rules of START_CHIME
and UPDATE, row by row (R158-R170). -/

namespace Sys2Proof.Machine

/-! ### When a step stops (00_scope.md R9, R84) -/

/-- A word that HOST has a step for is answered by a next state. -/
theorem runWord_answers {w : CommandWord} {s : State} (h : hostAccepts w s = true) : ∃ t, runWord w s = .next t := by
  unfold runWord
  cases hd : decode w with
  | error e => exact ⟨_, rfl⟩
  | ok i =>
    by_cases hf : s.faultCode = 0#8
    · exact exec_answers_of_faultFree hf i
    · have hl : legalWhenFaulted i = true := ((hostAccepts_of_ok hd).1 h).resolve_left hf
      simp only [exec_of_faulted hf, if_pos hl]
      exact finish_next _

/-- HOST's turn stops only at a call with a wall clock out of range (48_host_trigger.md R200). -/
theorem hostTurn_answers (s : State) :
    (∃ t, hostTurn s = .next t) ∨
    (hostTurn s = .refused .wallClockOutOfRange ∧
      ∃ h m sec rest, s.hostQueue = .maybeChime h m sec :: rest ∧ ¬(h ≤ 23 ∧ m ≤ 59 ∧ sec ≤ 59)) := by
  unfold hostTurn
  split
  next => exact .inl ⟨_, rfl⟩
  next w rest _ =>
    split
    next ha => exact .inl (runWord_answers (s := { s with hostQueue := rest }) ha)
    next => exact .inl ⟨_, rfl⟩
  next h m sec rest hq =>
    split
    next => exact .inl ⟨_, rfl⟩
    next hbad => exact .inr ⟨rfl, h, m, sec, rest, hq, by simpa [wallClockOk, and_assoc] using hbad⟩
  next => exact .inl ⟨_, rfl⟩

/-- Settles O10: TICK's turn always passes, CLOCK's stops at the end of the run's scope, HOST's at the wall clock. -/
theorem stepStopsOnlyOutsideTheScope : Obligations.StepStopsOnlyOutsideTheScope := by
  intro s
  obtain ⟨a, turns, draws, hstep⟩ := step_turn s
  rw [hstep]
  cases a with
  | tick => exact .inl ⟨_, rfl⟩
  | host =>
    obtain hnext | hrefused := hostTurn_answers { s with schedule := turns, drawCount := draws }
    · exact .inl hnext
    · exact .inr (.inr hrefused)
  | clock =>
    rw [agentTurn_clock, clockTurn]
    split
    next => exact .inl ⟨_, rfl⟩
    next hlong => exact .inr (.inl ⟨rfl, not_lt.1 hlong⟩)

/-! ### The gaps (R153, R154) -/

theorem gapLength_melody {s : State} (h : s.chimePhase = .melody) :
    gapLength s =
      if Config.phraseEnds.contains (s.sequenceIndex.toNat - 1) then s.params.gapPhrase else s.params.gapNote := by
  simp only [gapLength, h]

theorem gapLength_pause {s : State} (h : s.chimePhase = .pauseBeforeStrikes) : gapLength s = s.params.gapPause := by
  simp only [gapLength, h]

theorem gapLength_strikes {s : State} (h : s.chimePhase = .strikes) : gapLength s = s.params.gapStrike := by
  simp only [gapLength, h]

theorem gapLength_rest {s : State} (h : s.chimePhase = .none ∨ s.chimePhase = .complete) : gapLength s = 0 := by
  obtain h | h := h <;> simp only [gapLength, h]

theorem phraseEnds_contains (n : Nat) : Config.phraseEnds.contains n = true ↔ n = 3 ∨ n = 7 ∨ n = 11 := by
  simp [Config.phraseEnds]

/-- Settles O22: `phraseEnds` holds the three values, and index 0, whose predecessor is no natural number, is none of
them either way. -/
theorem gapLengthFollowsTheTable : Obligations.GapLengthFollowsTheTable := by
  refine fun s => ⟨fun h after hafter => ?_, gapLength_pause, gapLength_strikes, gapLength_rest⟩
  rw [gapLength_melody h]
  refine if_congr ?_ rfl rfl
  rw [phraseEnds_contains]
  omega

/-- Within the gaps' range every gap of a cycle takes time (R152, R153). -/
theorem gapLength_pos {s : State} (hgaps : gapsInRange s.params) (hnone : s.chimePhase ≠ .none)
    (hcomplete : s.chimePhase ≠ .complete) : 0 < gapLength s :=
  Nat.pos_of_ne_zero fun h => (chimePhase_of_gapLength_eq_zero hgaps h).elim hnone hcomplete

/-! ### START_CHIME (R158, R160) -/

/-- A command of a running block whose rule ends without a raise answers the rule's state. -/
theorem exec_of_done {i : Instr} {s t : State} (hrun : running s) (h : ruleOf i s = .done t) : exec i s = .next t := by
  rw [exec_of_running hrun.1 hrun.2, h, finish_done]

theorem startChimeRule_of_outOfRange {n : Byte} (h : n.toNat < 1 ∨ 12 < n.toNat) (s : State) :
    startChimeRule n s = .raised .strikeCountRange s := by
  have hn : strikesInRange n = false := Bool.eq_false_iff.2 fun hin => by
    have := (strikesInRange_iff n).1 hin
    omega
  simp [startChimeRule, hn]

theorem startChimeRule_of_busy {n : Byte} {s : State} (hn : 1 ≤ n.toNat ∧ n.toNat ≤ 12)
    (hbusy : s.playbackState ≠ .idle) : startChimeRule n s = .done s := by
  rw [startChimeRule, if_neg (by simp [(strikesInRange_iff n).2 hn]), if_pos hbusy]

theorem startNote_of_active {s : State} (h : s.active = true) (f d : Half) :
    startNote f d s = .raised .noteOverlap s := by rw [startNote, if_pos h]

theorem startNote_of_error {f d : Half} {s : State} {c : FaultCode} (h : s.active = false)
    (hp : noteParams s.params f d = .error c) : startNote f d s = .raised c s := by
  simp [startNote, h, hp]

theorem startMelodyNote_of_raised {s : State} {c : FaultCode} (now : Time)
    (h : startNote (entryFrequency (s.melodyRom.get (Fin.ofNat 17 s.sequenceIndex.toNat)))
      (entryDuration (s.melodyRom.get (Fin.ofNat 17 s.sequenceIndex.toNat))) s = .raised c s) :
    startMelodyNote now s = .raised c s := by
  simp only [startMelodyNote, memReadMelody, h, andThen_raised]

/-- What START_CHIME has written when it starts its first note. -/
def chimeEntered (n : Byte) (s : State) : State :=
  { s with chimePhase := .melody, sequenceIndex := 0#32, strikeCount := n.setWidth 32 }

/-- A first note that cannot start raises after START_CHIME's three writes. -/
theorem exec_startChime_of_raised {s : State} {n : Byte} {c : FaultCode} (hrun : running s)
    (hn : 1 ≤ n.toNat ∧ n.toNat ≤ 12) (hidle : s.playbackState = .idle)
    (h : startNote (entryFrequency (s.melodyRom.get 0)) (entryDuration (s.melodyRom.get 0)) (chimeEntered n s) =
      .raised c (chimeEntered n s)) :
    exec (.startChime n) s = .next { chimeEntered n s with faultCode := faultByte c } := by
  have hrule : ruleOf (.startChime n) s = .raised c (chimeEntered n s) :=
    (startChimeRule_of_idle hn hidle).trans (startMelodyNote_of_raised (s := chimeEntered n s) s.nowMs h)
  rw [exec_of_running hrun.1 hrun.2, hrule, finish_raised_of_faultFree (s := chimeEntered n s) hrun.1]

/-- Settles O24: past the range check the re-entrancy guard ends the rule. -/
theorem startChimeWhilePlayingChangesNothing : Obligations.StartChimeWhilePlayingChangesNothing :=
  fun _ _ hrun hbusy hmin hmax => exec_of_done (i := .startChime _) hrun (startChimeRule_of_busy ⟨hmin, hmax⟩ hbusy)

/-- Settles O25: the range check raises before any write, the first note's start after START_CHIME's three. -/
theorem startChimeFaultsAndWhatTheyLeave : Obligations.StartChimeFaultsAndWhatTheyLeave := by
  intro s n hrun
  refine ⟨fun hn => ?_, fun hmin hmax hidle hactive => ?_, fun hmin hmax hidle hactive c hp => ?_⟩
  · exact exec_of_raised (.startChime n) hrun (startChimeRule_of_outOfRange hn s)
  · exact exec_startChime_of_raised hrun ⟨hmin, hmax⟩ hidle (startNote_of_active (s := chimeEntered n s) hactive _ _)
  · exact exec_startChime_of_raised hrun ⟨hmin, hmax⟩ hidle (startNote_of_error hactive hp)

/-! ### UPDATE, row by row (R170) -/

/-- Clearing a flag that is clear changes nothing. -/
theorem completedFlag_cleared {s : State} (h : s.completedFlag = false) : { s with completedFlag := false } = s := by
  rw [← h]

/-- Settles O26: a note's end is one row of UPDATE, whatever ends it, and before it nothing happens. -/
theorem updateWhileANotePlays : Obligations.UpdateWhileANotePlays := by
  intro s hrun hgaps hnote hphase
  have hgap : 0 < gapLength s := gapLength_pos hgaps (fun h => by simp [h] at hphase) (fun h => by simp [h] at hphase)
  refine ⟨fun hc => ?_, fun hc hdue => ?_, fun hc hearly => ?_⟩
  · exact exec_of_done (i := .update) hrun (updateRule_ends hnote hgap (.inl hc))
  · have hrule := updateRule_ends hnote hgap (.inr hdue)
    rw [completedFlag_cleared hc] at hrule
    exact exec_of_done (i := .update) hrun hrule
  · exact exec_of_done (i := .update) hrun (updateRule_sounding hnote hc hearly)

theorem updateRule_gap_early {s : State} (hgap : s.playbackState = .gap) (hc : s.completedFlag = false)
    (hearly : elapsed s.nowMs s < gapLength s) : updateRule s = .done s := by
  rw [updateRule_gap hgap hc, pollGapEnd_early hearly, andThen_done, pollCycleEnd_of_busy (by simp [hgap])]

theorem updateRule_gap_due {s : State} (hgap : s.playbackState = .gap) (hc : s.completedFlag = false)
    (hdue : gapLength s ≤ elapsed s.nowMs s) : updateRule s = andThen (advance s.nowMs s) pollCycleEnd := by
  rw [updateRule_gap hgap hc, pollGapEnd_due hgap hdue]

/-- A gap that is over, whose `advance` leaves a cycle under way, ends where `advance` does. -/
theorem exec_update_gap {s t : State} (hrun : running s) (hgap : s.playbackState = .gap) (hc : s.completedFlag = false)
    (hdue : gapLength s ≤ elapsed s.nowMs s) (hadvance : advance s.nowMs s = .done t) (ht : t.playbackState ≠ .idle) :
    exec .update s = .next t := by
  refine exec_of_done (i := .update) hrun ?_
  rw [ruleOf, updateRule_gap_due hgap hc hdue, hadvance, andThen_done, pollCycleEnd_of_busy ht]

/-- Settles O27: in a gap UPDATE is `advance`, once the gap's length has passed; only the end of the cycle is left to
step 5. -/
theorem updateInAGap : Obligations.UpdateInAGap := by
  intro s hrun hgap hactive hc
  refine ⟨fun hearly => ?_, fun inc tgt hphase hdue k hk hlt hp => ?_, fun hphase hdue hindex => ?_,
    fun inc tgt hphase hdue hp => ?_, fun inc tgt hphase hdue hlt hp => ?_, fun hphase hdue hindex => ?_⟩
  · exact exec_of_done (i := .update) hrun (updateRule_gap_early hgap hc hearly)
  · obtain rfl : k = Fin.ofNat 17 s.sequenceIndex.toNat :=
      Fin.ext (hk.trans (Nat.mod_eq_of_lt (hk ▸ k.isLt)).symm)
    have hstart := startMelodyNote_ok (now := s.nowMs) hactive hp
    exact exec_update_gap hrun hgap hc hdue ((advance_melody hphase (hk ▸ hlt)).trans hstart) nofun
  · have hstate : { s with chimePhase := .pauseBeforeStrikes, noteStartTimeMs := s.nowMs } = enterPause s.nowMs s := by
      rw [enterPause, ← hgap]
    rw [hstate]
    exact exec_update_gap hrun hgap hc hdue (advance_melody_end hphase hindex.ge) nofun
  · have hstart := startStrike_ok (now := s.nowMs) (s := { s with chimePhase := .strikes, strikeIndex := 0#32 })
      hactive hp
    exact exec_update_gap hrun hgap hc (gapLength_pause hphase ▸ hdue) ((advance_pause hphase).trans hstart) nofun
  · have hstart := startStrike_ok (now := s.nowMs) hactive hp
    exact exec_update_gap hrun hgap hc (gapLength_strikes hphase ▸ hdue)
      ((advance_strikes hphase hlt).trans hstart) nofun
  · refine exec_of_done (i := .update) hrun ?_
    rw [ruleOf, updateRule_gap_due hgap hc (gapLength_strikes hphase ▸ hdue),
      advance_strikes_end hphase (by simp [hindex])]
    rfl

theorem goIdle_gapEntered {now : Time} {s : State} (hidle : s.playbackState = .idle) (hphase : s.chimePhase = .none) :
    goIdle .none (gapEntered now s) = silenced (silenced { s with noteStartTimeMs := now }) := by
  simp [goIdle, gapEntered, silenced, stopNote, outWrite, hidle, hphase]

/-- Outside a cycle the gap behind a note is over at once (R155, R163). -/
theorem pollGapEnd_gapEntered_rest {now : Time} {s : State} (hphase : s.chimePhase = .none) :
    pollGapEnd now (gapEntered now s) = .done (goIdle .none (gapEntered now s)) := by
  have hrest : (gapEntered now s).chimePhase = .none := hphase
  rw [pollGapEnd_due rfl (by rw [gapLength_rest (.inl hrest)]; exact Nat.zero_le _), advance_rest (.inl hrest)]

theorem updateRule_rest_noteOver {s : State} (hidle : s.playbackState = .idle) (hphase : s.chimePhase = .none)
    (hover : noteOver s) :
    updateRule s = .done (silenced (silenced { s with completedFlag := false, noteStartTimeMs := s.nowMs })) := by
  obtain ⟨_, ⟨hnot, -⟩ | ⟨-, rfl⟩, hrule⟩ := updateRule_notePolled s
  · exact absurd hover hnot
  · rw [hrule, pollGapEnd_gapEntered_rest (s := { s with completedFlag := false }) hphase, andThen_done,
      pollCycleEnd_of_phase (by simp), goIdle_gapEntered (s := { s with completedFlag := false }) hidle hphase]

theorem updateRule_rest_quiet {s : State} (hidle : s.playbackState = .idle) (hphase : s.chimePhase = .none)
    (hquiet : ¬noteOver s) : updateRule s = .done s := by
  obtain ⟨_, ⟨-, rfl⟩ | ⟨hover, -⟩, hrule⟩ := updateRule_notePolled s
  · rw [hrule, pollGapEnd_of_other (by simp [hidle]), andThen_done, pollCycleEnd_of_phase (by simp [hphase])]
  · exact absurd hover hquiet

/-- Settles O28: at rest UPDATE ends the note it finds over and returns to rest, with a neutral write for each; with
none over, no step of it acts. -/
theorem updateAtRest : Obligations.UpdateAtRest := by
  intro s hrun hidle hphase
  have hends (hover : noteOver s) :
      exec .update s = .next (silenced (silenced { s with completedFlag := false, noteStartTimeMs := s.nowMs })) :=
    exec_of_done (i := .update) hrun (updateRule_rest_noteOver hidle hphase hover)
  refine ⟨fun hc => hends (.inl hc), fun hc hactive hlate => ?_, fun hc hquiet => ?_⟩
  · rw [hends (.inr (.inl ⟨hactive, hidle, hlate⟩)), ← hc]
  · refine exec_of_done (i := .update) hrun (updateRule_rest_quiet hidle hphase ?_)
    rintro (hover | ⟨hactive, -, hlate⟩ | ⟨hnote, -⟩)
    · exact absurd (hc.symm.trans hover) nofun
    · exact hquiet.elim (fun hoff => absurd (hoff.symm.trans hactive) nofun) (not_le.2 hlate)
    · exact absurd (hidle.symm.trans hnote) nofun

end Sys2Proof.Machine

/-! SUPPORT. How a cycle moves (42_sequencer.md R155-R166, R170, R171): UPDATE of a healthy block, the moves of a
cycle, and how many are left. -/

namespace Sys2Proof.Machine

/-! ### The phase axis (R157, R166) -/

/-- The phase is kept or goes one place forward. -/
def PhaseForward (s t : State) : Prop :=
  t.chimePhase = s.chimePhase ∨
  (s.chimePhase = .none ∧ t.chimePhase = .melody) ∨
  (s.chimePhase = .melody ∧ t.chimePhase = .pauseBeforeStrikes) ∨
  (s.chimePhase = .pauseBeforeStrikes ∧ t.chimePhase = .strikes) ∨
  (s.chimePhase = .strikes ∧ t.chimePhase = .none)

theorem NotePolled.chimePhase {s u : State} (h : NotePolled s u) : u.chimePhase = s.chimePhase := by
  obtain ⟨-, rfl⟩ | ⟨-, rfl⟩ := h <;> rfl

theorem GapEnd.phaseForward {now : Time} {s t : State} (h : GapEnd now s (.done t)) (hs : s.chimePhase ≠ .complete) :
    PhaseForward s t := by
  cases h with
  | melodyNote => exact .inl rfl
  | pause hphase => exact .inr (.inr (.inl ⟨hphase, rfl⟩))
  | firstStrike hphase => exact .inr (.inr (.inr (.inl ⟨hphase, rfl⟩)))
  | nextStrike => exact .inl rfl
  | rest hmelody hpause =>
    cases hphase : s.chimePhase with
    | none => exact .inl hphase.symm
    | strikes => exact .inr (.inr (.inr (.inr ⟨hphase, rfl⟩)))
    | melody => exact absurd hphase hmelody
    | pauseBeforeStrikes => exact absurd hphase hpause
    | complete => exact absurd hphase hs

/-- Complete lasts no longer than an UPDATE (10_state.md R54 item 7). -/
theorem incomplete_of_healthy {s : State} (hs : healthy s) : s.chimePhase ≠ .complete := by
  obtain ⟨-, -, -, -, -, -, hcomplete, -⟩ := hs
  exact hcomplete

theorem RuleEnd.phaseForward {i : Instr} {s t : State} (h : RuleEnd s i (.done t)) (hs : healthy s) :
    PhaseForward s t := by
  have hcomplete := incomplete_of_healthy hs
  cases h with
  | firstNote _ _ hidle => exact .inr (.inl ⟨chimePhase_of_idle hs hidle, rfl⟩)
  | polled _ hu => exact .inl hu.chimePhase
  | closed _ hphase => exact absurd hphase hcomplete
  | gapEnd u _ hu _ hr =>
    have hforward := hr.phaseForward (hu.chimePhase ▸ hcomplete)
    rwa [PhaseForward, hu.chimePhase] at hforward
  | _ => exact .inl rfl

/-- Settles O29: only UPDATE and START_CHIME write the phase, and each of their ends moves it one place at most. -/
theorem phaseAxisOnlyMovesForward : Obligations.PhaseAxisOnlyMovesForward := by
  intro s t _ hs h ht
  obtain ⟨u, hsame, hcases⟩ := step_faultFree_cases h ht
  have hu : u.chimePhase = s.chimePhase := by
    obtain ⟨_, _, _, _, _, _, rfl⟩ := hsame
    rfl
  show PhaseForward s t
  rw [PhaseForward, ← hu]
  obtain rfl | rfl | ⟨_, _, _, -, -, hend⟩ := hcases
  · exact .inl rfl
  · exact .inl (tick_chimePhase u)
  · exact hend.phaseForward (healthy_of_sameBlock hsame hs)

/-! ### UPDATE of a healthy block with a playable melody (R155, R161, 60_exceptions.md R223) -/

/-- Each entry of a playable melody has note parameters. -/
theorem entryParams_of_playable {s : State} (h : playable s) (i : Fin 17) :
    ∃ inc tgt, entryParams s (s.melodyRom.get i) inc tgt := by
  match hp : noteParams s.params (entryFrequency (s.melodyRom.get i)) (entryDuration (s.melodyRom.get i)) with
  | .ok (inc, tgt) => exact ⟨inc, tgt, hp⟩
  | .error c =>
    have hok := h i
    rw [memReadMelody, hp] at hok
    cases hok

theorem startMelodyNote_done {s : State} (hactive : s.active = false) (hplay : playable s) (now : Time) :
    ∃ t, startMelodyNote now s = .done t := by
  obtain ⟨_, _, hp⟩ := entryParams_of_playable hplay (Fin.ofNat 17 s.sequenceIndex.toNat)
  exact ⟨_, startMelodyNote_ok hactive hp⟩

theorem startStrike_done {s : State} (hactive : s.active = false) (hplay : playable s) (now : Time) :
    ∃ t, startStrike now s = .done t := by
  obtain ⟨_, _, hp⟩ := entryParams_of_playable hplay 16
  exact ⟨_, startStrike_ok hactive hp⟩

/-- With nothing sounding and a playable melody `advance` raises nothing. -/
theorem advance_done {s : State} (hactive : s.active = false) (hplay : playable s) (now : Time) :
    ∃ t, advance now s = .done t := by
  cases hphase : s.chimePhase with
  | melody =>
    by_cases hindex : s.sequenceIndex.toNat < 16
    · rw [advance_melody hphase hindex]
      exact startMelodyNote_done hactive hplay now
    · exact ⟨_, advance_melody_end hphase (not_lt.1 hindex)⟩
  | pauseBeforeStrikes =>
    rw [advance_pause hphase]
    exact startStrike_done (s := { s with chimePhase := .strikes, strikeIndex := 0#32 }) hactive hplay now
  | strikes =>
    by_cases hindex : s.strikeIndex < s.strikeCount
    · rw [advance_strikes hphase hindex]
      exact startStrike_done hactive hplay now
    · exact ⟨_, advance_strikes_end hphase hindex⟩
  | none => exact ⟨_, advance_rest (.inl hphase)⟩
  | complete => exact ⟨_, advance_rest (.inr hphase)⟩

/-- Nothing sounds in a gap, and no failsafe is waiting there (10_state.md R54 item 4). -/
def gapSilent (s : State) : Prop := s.playbackState = .gap → s.active = false ∧ s.completedFlag = false

theorem gapSilent_of_healthy {s : State} (hs : healthy s) : gapSilent s := by
  obtain ⟨-, -, -, hsilent, -⟩ := hs
  exact hsilent

theorem NotePolled.gapSilent {s u : State} (h : NotePolled s u) (hs : gapSilent s) : Machine.gapSilent u := by
  obtain ⟨-, rfl⟩ | ⟨-, rfl⟩ := h
  · exact hs
  · exact fun _ => ⟨rfl, rfl⟩

theorem NotePolled.playable {s u : State} (h : NotePolled s u) (hs : playable s) : Machine.playable u := by
  obtain ⟨-, rfl⟩ | ⟨-, rfl⟩ := h <;> exact hs

theorem pollGapEnd_done {s : State} (hs : gapSilent s) (hplay : playable s) (now : Time) :
    ∃ t, pollGapEnd now s = .done t := by
  rw [pollGapEnd]
  split
  next hdue => exact advance_done (hs hdue.1).1 hplay now
  next => exact ⟨_, rfl⟩

/-- With a playable melody the rule of UPDATE raises nothing. -/
theorem updateRule_done {s : State} (hs : gapSilent s) (hplay : playable s) : ∃ t, updateRule s = .done t := by
  obtain ⟨u, hu, hrule⟩ := updateRule_notePolled s
  obtain ⟨t, ht⟩ := pollGapEnd_done (hu.gapSilent hs) (hu.playable hplay) s.nowMs
  exact ⟨pollCycleEnd t, by rw [hrule, ht, andThen_done]⟩

theorem updateRule_faultCode {s t : State} (h : updateRule s = .done t) : t.faultCode = s.faultCode := by
  obtain ⟨-, hfault, -⟩ := updateRule_sameControl s
  rwa [h] at hfault

/-- Settles O30: the rule of UPDATE ends without a raise, and it does not write the fault code. -/
theorem updateOfAHealthyBlockNeverFaults : Obligations.UpdateOfAHealthyBlockNeverFaults := by
  intro s hrun hs hplay
  obtain ⟨t, ht⟩ := updateRule_done (gapSilent_of_healthy hs) hplay
  exact ⟨t, exec_of_done (i := .update) hrun ht, (updateRule_faultCode ht).trans hrun.1⟩

end Sys2Proof.Machine

/-! SUPPORT. The moves of a cycle: what UPDATE makes of a busy block, and how many moves are left (42_sequencer.md R155,
R162-R166, R170, R171). -/

namespace Sys2Proof.Machine

/-! ### The moves of a busy block (R162-R166, R170) -/

/-- UPDATE finds the next move of a busy block due. -/
def updateDue (s : State) : Prop := s.completedFlag = true ∨ dueMs s ≤ elapsed s.nowMs s

/-- A move of a busy block: UPDATE ends its note or its gap. -/
inductive CycleMove (s t : State) : Prop
  | noteEnds (hnote : s.playbackState = .playingNote) (hphase : s.chimePhase ≠ .none)
      (ht : t = gapEntered s.nowMs { s with completedFlag := false })
  | gapEnds (hgap : s.playbackState = .gap) (hend : GapEnd s.nowMs s (.done t))
  /-- Outside a cycle the gap behind a note is over at once (R155). -/
  | rests (hnote : s.playbackState = .playingNote) (hphase : s.chimePhase = .none)
      (ht : t = goIdle .none (gapEntered s.nowMs { s with completedFlag := false }))

theorem dueMs_note {s : State} (h : s.playbackState = .playingNote) : dueMs s = s.noteDurationMs.toNat := by
  simp only [dueMs, h]

theorem dueMs_gap {s : State} (h : s.playbackState = .gap) : dueMs s = gapLength s := by
  simp only [dueMs, h]

theorem noteOver_iff_of_note {s : State} (h : s.playbackState = .playingNote) : noteOver s ↔ updateDue s := by
  simp [noteOver, updateDue, dueMs_note h, h]

theorem updateRule_note_due {s t : State} (hgaps : gapsInRange s.params) (hcomplete : s.chimePhase ≠ .complete)
    (hnote : s.playbackState = .playingNote) (hdue : updateDue s) (h : updateRule s = .done t) : CycleMove s t := by
  by_cases hrest : s.chimePhase = .none
  · obtain ⟨_, ⟨hnot, -⟩ | ⟨-, rfl⟩, hrule⟩ := updateRule_notePolled s
    · exact absurd ((noteOver_iff_of_note hnote).2 hdue) hnot
    · rw [hrule, pollGapEnd_gapEntered_rest (s := { s with completedFlag := false }) hrest] at h
      cases h
      exact .rests hnote hrest rfl
  · rw [updateDue, dueMs_note hnote] at hdue
    rw [updateRule_ends hnote (gapLength_pos hgaps hrest hcomplete) hdue] at h
    cases h
    exact .noteEnds hnote hrest rfl

/-- UPDATE of a busy block makes its move if it is due and leaves the block alone otherwise. -/
theorem updateRule_of_busy {s t : State} (hs : gapSilent s) (hcomplete : s.chimePhase ≠ .complete)
    (hgaps : gapsInRange s.params) (hbusy : s.playbackState ≠ .idle) (h : updateRule s = .done t) :
    (updateDue s ∧ CycleMove s t) ∨ (¬updateDue s ∧ t = s) := by
  cases hstate : s.playbackState with
  | idle => exact absurd hstate hbusy
  | playingNote =>
    by_cases hdue : updateDue s
    · exact .inl ⟨hdue, updateRule_note_due hgaps hcomplete hstate hdue h⟩
    · rw [updateDue, dueMs_note hstate, not_or] at hdue
      obtain ⟨hc, hearly⟩ := hdue
      rw [updateRule_sounding hstate (Bool.eq_false_iff.2 hc) (not_le.1 hearly)] at h
      cases h
      exact .inr ⟨by rw [updateDue, dueMs_note hstate, not_or]; exact ⟨hc, hearly⟩, rfl⟩
  | gap =>
    have hc : s.completedFlag = false := (hs hstate).2
    by_cases hdue : gapLength s ≤ elapsed s.nowMs s
    · rw [updateRule_gap_due hstate hc hdue] at h
      exact .inl ⟨.inr (dueMs_gap hstate ▸ hdue), .gapEnds hstate (h ▸ gapEnd_of_advance s.nowMs s)⟩
    · rw [updateRule_gap_early hstate hc (not_le.1 hdue)] at h
      cases h
      exact .inr ⟨by simp [updateDue, hc, dueMs_gap hstate, not_le.1 hdue], rfl⟩

theorem GapEnd.position_ne {now : Time} {s t : State} (h : GapEnd now s (.done t)) (hgap : s.playbackState = .gap) :
    position t ≠ position s := by
  cases h with
  | pause hphase => simp [position, hphase]
  | _ => simp [position, hgap]

theorem CycleMove.position_ne {s t : State} (h : CycleMove s t) : position t ≠ position s := by
  cases h with
  | noteEnds hnote _ ht => simp [position, hnote, ht, gapEntered]
  | gapEnds hgap hend => exact hend.position_ne hgap
  | rests hnote _ ht => simp [position, hnote, ht]

/-! ### Every move can be made (R161, R168) -/

/-- No tick writes a field of the sequencer, a ROM, a parameter or a control field. -/
theorem iterate_tick_same (k : Nat) (s : State) : SameSequencer s (tick^[k] s) ∧ SameControl s (tick^[k] s) := by
  induction k with
  | zero => exact ⟨.refl s, .refl s⟩
  | succ k ih =>
    rw [Function.iterate_succ_apply']
    refine ⟨?_, ih.2.trans (tick_sameControl _)⟩
    simpa [SameSequencer] using ih.1

theorem healthy_iterate_tick {s : State} (hs : healthy s) (k : Nat) : healthy (tick^[k] s) := by
  induction k with
  | zero => exact hs
  | succ k ih =>
    rw [Function.iterate_succ_apply']
    exact healthy_tick ih

/-- The block when UPDATE is given at time `now` after `k` ticks. -/
def polledAt (k : Nat) (now : Time) (s : State) : State := { tick^[k] s with nowMs := now }

theorem polledAt_sameSequencer (k : Nat) (now : Time) (s : State) : SameSequencer s (polledAt k now s) :=
  (iterate_tick_same k s).1

theorem polledAt_sameConfiguration (k : Nat) (now : Time) (s : State) : SameConfiguration s (polledAt k now s) :=
  (iterate_tick_same k s).2.1.sameConfiguration

theorem running_polledAt {s : State} (h : running s) (k : Nat) (now : Time) : running (polledAt k now s) := by
  obtain ⟨-, -, hfault, hbegun, -⟩ := iterate_tick_same k s
  exact ⟨hfault.trans h.1, hbegun.trans h.2⟩

theorem healthy_polledAt {s : State} (hs : healthy s) (k : Nat) (now : Time) : healthy (polledAt k now s) :=
  healthy_iterate_tick hs k

theorem SameConfiguration.playable {s t : State} (h : SameConfiguration s t) (hs : playable s) :
    Machine.playable t := by
  obtain ⟨-, hmelody, hparams⟩ := h
  intro i
  rw [memReadMelody, hmelody, hparams]
  exact hs i

theorem SameConfiguration.gapsInRange {s t : State} (h : SameConfiguration s t) (hs : gapsInRange s.params) :
    Machine.gapsInRange t.params := by
  obtain ⟨-, -, hparams⟩ := h
  exact hparams ▸ hs

/-- What the sequencer does and when it moves on depends on its own fields and the gaps only. -/
theorem SameSequencer.position {s t : State} (h : SameSequencer s t) : Machine.position t = Machine.position s := by
  obtain ⟨hstate, hphase, hseq, hstrike, -⟩ := h
  simp only [Machine.position, hstate, hphase, hseq, hstrike]

theorem SameSequencer.elapsed {s t : State} (h : SameSequencer s t) (now : Time) :
    Machine.elapsed now t = Machine.elapsed now s := by
  obtain ⟨-, -, -, -, -, hstamp, -⟩ := h
  simp only [Machine.elapsed, hstamp]

theorem SameSequencer.dueMs {s t : State} (h : SameSequencer s t) (hparams : t.params = s.params) :
    Machine.dueMs t = Machine.dueMs s := by
  obtain ⟨hstate, hphase, hseq, -, -, -, hduration⟩ := h
  simp only [Machine.dueMs, gapLength, hstate, hphase, hseq, hduration, hparams]

theorem updateDue_polledAt {s : State} {k : Nat} {now : Time} (h : moveDue k now s) : updateDue (polledAt k now s) := by
  have hsame := polledAt_sameSequencer k now s
  obtain ⟨-, -, hparams⟩ := polledAt_sameConfiguration k now s
  rw [updateDue, hsame.dueMs hparams, hsame.elapsed]
  exact h.symm

theorem gapLength_le {s : State} {G : Nat} (h : gapsAtMost G s.params) : gapLength s ≤ G := by
  obtain ⟨hnote, hphrase, hpause, hstrike⟩ := h
  unfold gapLength
  split
  · split
    · exact hphrase
    · exact hnote
  · exact hpause
  · exact hstrike
  · exact Nat.zero_le G
  · exact Nat.zero_le G

theorem dueMs_le {s : State} {G : Nat} (h : gapsAtMost G s.params) : dueMs s ≤ max (2 ^ 32) G := by
  cases hstate : s.playbackState with
  | idle => simp [dueMs, hstate]
  | playingNote => exact dueMs_note hstate ▸ le_max_of_le_left s.noteDurationMs.isLt.le
  | gap => exact dueMs_gap hstate ▸ le_max_of_le_right (gapLength_le h)

/-- No note and no gap lasts 2^64 ms (R152). -/
theorem dueMs_lt {s : State} (hgaps : gapsInRange s.params) : dueMs s < 2 ^ 64 := by
  obtain ⟨⟨-, hnote⟩, ⟨-, hphrase⟩, ⟨-, hpause⟩, -, hstrike⟩ := hgaps
  have hle := dueMs_le (s := s) (G := 2 ^ 64 - 1)
    ⟨Nat.le_pred_of_lt hnote, Nat.le_pred_of_lt hphrase, Nat.le_pred_of_lt hpause, Nat.le_pred_of_lt hstrike⟩
  exact Nat.lt_of_le_pred (by decide) hle

theorem elapsed_add {now : Time} {d : Nat} {s : State} (h : elapsed now s + d < 2 ^ 64) :
    elapsed (now + BitVec.ofNat 64 d) s = elapsed now s + d := by
  unfold elapsed at *
  bv_omega

/-- A time at which the move is due lies ahead: the rest of the note's or the gap's length from now. -/
theorem exists_due_ahead {s : State} (hgaps : gapsInRange s.params) :
    ∃ d, d ≤ dueMs s ∧ dueMs s ≤ elapsed (s.nowMs + BitVec.ofNat 64 d) s := by
  by_cases hnow : dueMs s ≤ elapsed s.nowMs s
  · exact ⟨0, Nat.zero_le _, by simpa using hnow⟩
  · have hsum : elapsed s.nowMs s + (dueMs s - elapsed s.nowMs s) = dueMs s := by omega
    refine ⟨dueMs s - elapsed s.nowMs s, Nat.sub_le _ _, ?_⟩
    rw [elapsed_add (hsum.trans_lt (dueMs_lt hgaps)), hsum]

/-- Settles O33: UPDATE of a healthy block with a playable melody raises nothing, so a due move is made. -/
theorem aCycleCanAlwaysMoveOn : Obligations.ACycleCanAlwaysMoveOn := by
  intro s hrun hs hplay hgaps hbusy
  refine ⟨fun k now hdue => ?_, exists_due_ahead hgaps⟩
  have hsame := polledAt_sameSequencer k now s
  have hconfig := polledAt_sameConfiguration k now s
  have hu := healthy_polledAt hs k now
  have hrunu := running_polledAt hrun k now
  obtain ⟨t, ht⟩ := updateRule_done (gapSilent_of_healthy hu) (hconfig.playable hplay)
  obtain ⟨-, hmove⟩ | ⟨hnot, -⟩ := updateRule_of_busy (gapSilent_of_healthy hu) (incomplete_of_healthy hu)
    (hconfig.gapsInRange hgaps) (hsame.1 ▸ hbusy) ht
  · exact ⟨t, exec_of_done (i := .update) hrunu ht, hsame.position ▸ hmove.position_ne,
      (updateRule_faultCode ht).trans hrunu.1, healthy_of_ruleEnd (ht ▸ updateRule_ruleEnd _) hu⟩
  · exact absurd (updateDue_polledAt hdue) hnot

/-! ### The moves left of a cycle (R171) -/

/-- The moves a cycle has left in a gap: two for each melody note and each strike to come, one for the pause, and one
back to rest. -/
def gapMovesLeft (s : State) : Nat :=
  match s.chimePhase with
  | .melody => 2 * (16 - s.sequenceIndex.toNat) + 2 * s.strikeCount.toNat + 2
  | .pauseBeforeStrikes => 2 * s.strikeCount.toNat + 1
  | .strikes => 2 * (s.strikeCount.toNat - s.strikeIndex.toNat) + 1
  | .none => 1
  | .complete => 1

/-- The moves a block has left to get to rest: a note has its own end before it. -/
def movesLeft (s : State) : Nat :=
  match s.playbackState with
  | .idle => 0
  | .playingNote => gapMovesLeft s + 1
  | .gap => gapMovesLeft s

theorem movesLeft_note {s : State} (h : s.playbackState = .playingNote) : movesLeft s = gapMovesLeft s + 1 := by
  simp only [movesLeft, h]

theorem movesLeft_gap {s : State} (h : s.playbackState = .gap) : movesLeft s = gapMovesLeft s := by
  simp only [movesLeft, h]

theorem gapMovesLeft_pos (s : State) : 0 < gapMovesLeft s := by
  unfold gapMovesLeft
  split <;> exact Nat.succ_pos _

theorem idle_of_movesLeft {s : State} (h : movesLeft s = 0) : s.playbackState = .idle := by
  have hpos := gapMovesLeft_pos s
  cases hstate : s.playbackState with
  | idle => rfl
  | playingNote => rw [movesLeft_note hstate] at h; omega
  | gap => rw [movesLeft_gap hstate] at h; omega

theorem SameSequencer.movesLeft {s t : State} (h : SameSequencer s t) : Machine.movesLeft t = Machine.movesLeft s := by
  obtain ⟨hstate, hphase, hseq, hstrike, hcount, -⟩ := h
  simp only [Machine.movesLeft, gapMovesLeft, hstate, hphase, hseq, hstrike, hcount]

/-- No cycle has as many as 64 moves. -/
theorem movesLeft_le {s : State} (hs : healthy s) : movesLeft s ≤ 64 := by
  obtain ⟨-, -, -, -, -, ⟨-, -, hcount, -⟩, -, -⟩ := hs
  have hgap : gapMovesLeft s ≤ 58 := by
    unfold gapMovesLeft
    split <;> omega
  unfold movesLeft
  split <;> omega

theorem GapEnd.movesLeft_lt {now : Time} {s t : State} (h : GapEnd now s (.done t)) (hs : healthy s)
    (hgap : s.playbackState = .gap) : movesLeft t < movesLeft s := by
  obtain ⟨-, -, -, -, -, ⟨hseq, hindex, hmax, -, hsome⟩, -, -⟩ := hs
  rw [movesLeft_gap hgap]
  cases h with
  | melodyNote hphase hlt =>
    have hnext := toNat_add_one hseq
    rw [movesLeft_note rfl]
    simp only [gapMovesLeft, notePlaying, noteStarted, hphase, hnext]
    omega
  | pause hphase hge =>
    rw [movesLeft_gap rfl]
    simp only [gapMovesLeft, enterPause, hphase]
    omega
  | firstStrike hphase =>
    have hone : 1 ≤ s.strikeCount.toNat := hsome (by simp [hphase])
    rw [movesLeft_note rfl]
    simp only [gapMovesLeft, notePlaying, noteStarted, hphase, BitVec.toNat_ofNat]
    omega
  | nextStrike hphase hlt =>
    have hnext := toNat_add_one (hindex.trans (by decide))
    rw [BitVec.lt_def] at hlt
    rw [movesLeft_note rfl]
    simp only [gapMovesLeft, notePlaying, noteStarted, hphase, hnext]
    omega
  | rest => exact gapMovesLeft_pos s

/-- A move leaves fewer moves, and stamps the note or the gap it begins. -/
def MovesOn (s t : State) : Prop :=
  movesLeft t < movesLeft s ∧ (t.playbackState ≠ .idle → t.noteStartTimeMs = s.nowMs)

theorem GapEnd.stamp {now : Time} {s t : State} (h : GapEnd now s (.done t)) (hbusy : t.playbackState ≠ .idle) :
    t.noteStartTimeMs = now := by
  cases h with
  | rest => exact absurd rfl hbusy
  | _ => rfl

theorem CycleMove.movesOn {s t : State} (h : CycleMove s t) (hs : healthy s) : MovesOn s t := by
  cases h with
  | noteEnds hnote _ ht =>
    rw [MovesOn, movesLeft_note hnote, ht]
    exact ⟨Nat.lt_succ_self _, fun _ => rfl⟩
  | gapEnds hgap hend => exact ⟨hend.movesLeft_lt hs hgap, hend.stamp⟩
  | rests hnote _ ht =>
    rw [MovesOn, movesLeft_note hnote, ht]
    exact ⟨Nat.succ_pos _, fun hbusy => absurd rfl hbusy⟩

end Sys2Proof.Machine

/-! SUPPORT. The positions of a chime cycle, one move after the other (42_sequencer.md R155, R156, R158, R171). -/

namespace Sys2Proof.Machine

/-! ### The position after a move -/

/-- The position a move leads to, in a cycle of `count` strikes (R155, R156, R166). -/
def nextPosition (count : Nat) :
    PlaybackState × ChimePhase × Nat × Nat → PlaybackState × ChimePhase × Nat × Nat
  | (.idle, phase, i, k) => (.idle, phase, i, k)
  | (.playingNote, .none, i, k) => (.idle, .none, i, k)
  | (.playingNote, phase, i, k) => (.gap, phase, i, k)
  | (.gap, .melody, i, k) => if i < 16 then (.playingNote, .melody, i + 1, k) else (.gap, .pauseBeforeStrikes, i, k)
  | (.gap, .pauseBeforeStrikes, i, _) => (.playingNote, .strikes, i, 1)
  | (.gap, .strikes, i, k) => if k < count then (.playingNote, .strikes, i, k + 1) else (.idle, .none, i, k)
  | (.gap, .none, i, k) => (.idle, .none, i, k)
  | (.gap, .complete, i, k) => (.idle, .none, i, k)

theorem GapEnd.position {now : Time} {s t : State} (h : GapEnd now s (.done t)) (hgap : s.playbackState = .gap) :
    Machine.position t = nextPosition s.strikeCount.toNat (Machine.position s) := by
  cases h with
  | melodyNote hphase hlt =>
    have hnext := toNat_add_one hlt.le
    simp [Machine.position, nextPosition, notePlaying, noteStarted, hgap, hphase, hlt, hnext]
  | pause hphase hge => simp [Machine.position, nextPosition, enterPause, hgap, hphase, hge]
  | firstStrike hphase => simp [Machine.position, nextPosition, notePlaying, noteStarted, hgap, hphase]
  | nextStrike hphase hlt =>
    have hnext : (s.strikeIndex + 1#32).toNat = s.strikeIndex.toNat + 1 := by bv_omega
    rw [BitVec.lt_def] at hlt
    simp [Machine.position, nextPosition, notePlaying, noteStarted, hgap, hphase, hlt, hnext]
  | rest hmelody hpause hstrikes =>
    cases hphase : s.chimePhase with
    | melody => exact absurd hphase hmelody
    | pauseBeforeStrikes => exact absurd hphase hpause
    | strikes =>
      have hge := hstrikes hphase
      rw [BitVec.lt_def] at hge
      simp [Machine.position, nextPosition, hgap, hphase, hge]
    | none | complete => simp [Machine.position, nextPosition, hgap, hphase]

theorem CycleMove.position {s t : State} (h : CycleMove s t) :
    Machine.position t = nextPosition s.strikeCount.toNat (Machine.position s) := by
  cases h with
  | noteEnds hnote hphase ht =>
    cases hp : s.chimePhase with
    | none => exact absurd hp hphase
    | _ => simp [Machine.position, nextPosition, gapEntered, silenced, ht, hnote, hp]
  | gapEnds hgap hend => exact hend.position hgap
  | rests hnote hphase ht => simp [Machine.position, nextPosition, gapEntered, silenced, ht, hnote, hphase]

/-! ### The states of one cycle -/

/-- `t` is a state of a cycle of `n` strikes with the configuration of `s`. -/
structure InCycle (s : State) (n : Byte) (t : State) : Prop where
  running : running t
  configuration : SameConfiguration s t
  count : t.strikeCount.toNat = n.toNat
  silent : gapSilent t
  incomplete : t.chimePhase ≠ .complete

theorem GapEnd.kept {now : Time} {s t : State} (h : GapEnd now s (.done t)) (hs : gapSilent s)
    (hgap : s.playbackState = .gap) :
    t.strikeCount = s.strikeCount ∧ gapSilent t ∧ (s.chimePhase ≠ .complete → t.chimePhase ≠ .complete) := by
  cases h with
  | pause => exact ⟨rfl, fun _ => hs hgap, nofun⟩
  | rest => exact ⟨rfl, nofun, nofun⟩
  | firstStrike => exact ⟨rfl, nofun, nofun⟩
  | melodyNote | nextStrike => exact ⟨rfl, nofun, id⟩

theorem CycleMove.kept {s t : State} (h : CycleMove s t) (hs : gapSilent s) :
    t.strikeCount = s.strikeCount ∧ gapSilent t ∧ (s.chimePhase ≠ .complete → t.chimePhase ≠ .complete) := by
  cases h with
  | noteEnds _ _ ht => exact ht ▸ ⟨rfl, fun _ => ⟨rfl, rfl⟩, id⟩
  | gapEnds hgap hend => exact hend.kept hs hgap
  | rests _ _ ht => exact ht ▸ ⟨rfl, nofun, nofun⟩

/-- The gap after fewer than 16 melody notes ends with the next note, for its own duration (R155). -/
theorem CycleMove.melodyDuration {s t : State} {i k : Nat} (h : CycleMove s t)
    (hs : Machine.position s = (.gap, .melody, i, k)) (hi : i < 16) :
    t.noteDurationMs.toNat = (entryDuration (s.melodyRom.get (Fin.ofNat 17 i))).toNat := by
  obtain ⟨hgap, hphase, hindex, -⟩ : s.playbackState = .gap ∧ s.chimePhase = .melody ∧ s.sequenceIndex.toNat = i ∧
    s.strikeIndex.toNat = k := by simpa [Machine.position] using hs
  have hend : GapEnd s.nowMs s (.done t) := by
    cases h with
    | gapEnds _ hend => exact hend
    | noteEnds hnote => exact absurd (hgap.symm.trans hnote) nofun
    | rests hnote => exact absurd (hgap.symm.trans hnote) nofun
  cases hend with
  | melodyNote =>
    subst hindex
    exact BitVec.toNat_setWidth_of_le (by decide)
  | pause _ hge => exact absurd (hindex ▸ hge) (not_le.2 hi)
  | firstStrike hpause => exact absurd (hphase.symm.trans hpause) nofun
  | nextStrike hstrikes => exact absurd (hphase.symm.trans hstrikes) nofun
  | rest hmelody => exact absurd hphase hmelody

theorem SameConfiguration.trans {a b c : State} (h : SameConfiguration a b) (g : SameConfiguration b c) :
    SameConfiguration a c :=
  let ⟨hwave, hmelody, hparams⟩ := h
  let ⟨gwave, gmelody, gparams⟩ := g
  ⟨gwave.trans hwave, gmelody.trans hmelody, gparams.trans hparams⟩

/-- No tick wakes a silent gap. -/
theorem gapSilent_iterate_tick {s : State} (hs : gapSilent s) (k : Nat) : gapSilent (tick^[k] s) := by
  intro hgap
  have hstate : s.playbackState = .gap := (iterate_tick_same k s).1.1.symm.trans hgap
  rw [Function.iterate_fixed (tick_inactive (hs hstate).1)]
  exact hs hstate

theorem InCycle.polledAt {s t : State} {n : Byte} (h : InCycle s n t) (k : Nat) (now : Time) :
    InCycle s n (polledAt k now t) := by
  obtain ⟨-, hphase, -, -, hcount, -⟩ := polledAt_sameSequencer k now t
  exact {
    running := running_polledAt h.running k now
    configuration := h.configuration.trans (polledAt_sameConfiguration k now t)
    count := (congrArg BitVec.toNat hcount).trans h.count
    silent := gapSilent_iterate_tick h.silent k
    incomplete := hphase ▸ h.incomplete }

theorem InCycle.update {s t t' : State} {n : Byte} (h : InCycle s n t) (hrule : updateRule t = .done t')
    (hmove : CycleMove t t') : InCycle s n t' := by
  obtain ⟨hcount, hsilent, hincomplete⟩ := hmove.kept h.silent
  obtain ⟨houtside, hfault, hbegun, -⟩ := updateRule_sameControl t
  rw [hrule] at houtside hfault hbegun
  exact {
    running := ⟨hfault.trans h.running.1, hbegun.trans h.running.2⟩
    configuration := h.configuration.trans houtside.sameConfiguration
    count := (congrArg BitVec.toNat hcount).trans h.count
    silent := hsilent
    incomplete := hincomplete h.incomplete }

/-- A poll that finds the move due makes it, and the cycle goes on (R161, R170). -/
theorem InCycle.poll {s t t' : State} {n : Byte} (h : InCycle s n t) (hgaps : gapsInRange s.params) (hplay : playable s)
    (hbusy : t.playbackState ≠ .idle) (hpoll : CyclePoll t t') :
    InCycle s n t' ∧ ∃ u, InCycle s n u ∧ SameSequencer t u ∧ CycleMove u t' := by
  obtain ⟨k, now, hdue, hupdate⟩ := hpoll
  have hu := h.polledAt k now
  have hsame := polledAt_sameSequencer k now t
  obtain ⟨t'', hrule⟩ := updateRule_done hu.silent (hu.configuration.playable hplay)
  obtain rfl : t'' = t' := Host.Outcome.next.inj ((exec_of_done (i := .update) hu.running hrule).symm.trans hupdate)
  obtain ⟨-, hmove⟩ | ⟨hnot, -⟩ := updateRule_of_busy hu.silent hu.incomplete
    (hu.configuration.gapsInRange hgaps) (hsame.1 ▸ hbusy) hrule
  · exact ⟨hu.update hrule hmove, _, hu, hsame, hmove⟩
  · exact absurd (updateDue_polledAt hdue) hnot

/-- The state is in the cycle, at this position. -/
def CycleAt (s : State) (n : Byte) (t : State) (p : PlaybackState × ChimePhase × Nat × Nat) : Prop :=
  InCycle s n t ∧ position t = p

/-- A poll that finds the move due leads to the next position. -/
theorem CycleAt.poll {s t t' : State} {n : Byte} {p : PlaybackState × ChimePhase × Nat × Nat} (h : CycleAt s n t p)
    (hgaps : gapsInRange s.params) (hplay : playable s) (hbusy : p.1 ≠ .idle) (hpoll : CyclePoll t t') :
    CycleAt s n t' (nextPosition n.toNat p) := by
  obtain ⟨ht, rfl⟩ := h
  obtain ⟨ht', u, hu, hsame, hmove⟩ := ht.poll hgaps hplay hbusy hpoll
  exact ⟨ht', by rw [hmove.position, hu.count, hsame.position]⟩

/-- The next melody note has its own duration. -/
theorem CycleAt.melodyDuration {s t t' : State} {n : Byte} {i ki : Nat} (h : CycleAt s n t (.gap, .melody, i, ki))
    (hgaps : gapsInRange s.params) (hplay : playable s) (hi : i < 16) (hpoll : CyclePoll t t') :
    t'.noteDurationMs.toNat = (entryDuration (s.melodyRom.get (Fin.ofNat 17 i))).toNat := by
  obtain ⟨ht, hposition⟩ := h
  have hbusy : t.playbackState ≠ .idle := by
    rw [show t.playbackState = .gap from congrArg Prod.fst hposition]
    nofun
  obtain ⟨-, u, hu, hsame, hmove⟩ := ht.poll hgaps hplay hbusy hpoll
  obtain ⟨-, hmelody, -⟩ := hu.configuration
  rw [hmove.melodyDuration (hsame.position.trans hposition) hi, hmelody]

/-- START_CHIME from rest is the start of a cycle, at melody note 0 (R158). -/
theorem cycleAt_startChime {s t : State} {n : Byte} (hrun : running s) (hidle : s.playbackState = .idle)
    (hactive : s.active = false) (hplay : playable s) (hmin : 1 ≤ n.toNat) (hmax : n.toNat ≤ 12)
    (h : exec (.startChime n) s = .next t) :
    CycleAt s n t (.playingNote, .melody, 1, s.strikeIndex.toNat) ∧
      t.noteDurationMs.toNat = (entryDuration (s.melodyRom.get 0)).toNat := by
  obtain ⟨inc, tgt, hp⟩ := entryParams_of_playable hplay 0
  rw [startChimeStartsTheFirstNote s n inc tgt hrun hidle hactive hmin hmax hp] at h
  cases h
  exact ⟨⟨⟨hrun, .refl s, BitVec.toNat_setWidth_of_le (by decide), nofun, nofun⟩, rfl⟩,
    BitVec.toNat_setWidth_of_le (by decide)⟩

/-! ### The whole cycle (R171) -/

section Cycle

variable {s : State} {n : Byte} {c : Nat → State} (hgaps : gapsInRange s.params) (hplay : playable s)
  (hpolls : ∀ k, k < 33 + 2 * n.toNat → CyclePoll (c k) (c (k + 1)))

include hgaps hplay hpolls

/-- Two moves lead from a melody note to the next, by its gap. -/
theorem cycleAt_melody {ki : Nat} (hstart : CycleAt s n (c 0) (.playingNote, .melody, 1, ki)) {j : Nat} (hj : j < 16) :
    CycleAt s n (c (2 * j)) (.playingNote, .melody, j + 1, ki) ∧
      CycleAt s n (c (2 * j + 1)) (.gap, .melody, j + 1, ki) := by
  have hgap {j : Nat} (hj : j < 16) (h : CycleAt s n (c (2 * j)) (.playingNote, .melody, j + 1, ki)) :
      CycleAt s n (c (2 * j + 1)) (.gap, .melody, j + 1, ki) :=
    h.poll hgaps hplay nofun (hpolls _ (by omega))
  induction j with
  | zero => exact ⟨hstart, hgap hj hstart⟩
  | succ j ih =>
    have hnext := (ih (by omega)).2.poll hgaps hplay nofun (hpolls _ (by omega))
    rw [nextPosition, if_pos hj] at hnext
    exact ⟨hnext, hgap hj hnext⟩

/-- After the sixteenth note's gap comes the pause. -/
theorem cycleAt_pause {ki : Nat} (hstart : CycleAt s n (c 0) (.playingNote, .melody, 1, ki)) :
    CycleAt s n (c 32) (.gap, .pauseBeforeStrikes, 16, ki) :=
  (cycleAt_melody hgaps hplay hpolls hstart (j := 15) (by decide)).2.poll hgaps hplay nofun (hpolls 31 (by omega))

/-- Two moves lead from a strike to the next, by its gap. -/
theorem cycleAt_strikes {ki : Nat} (hpause : CycleAt s n (c 32) (.gap, .pauseBeforeStrikes, 16, ki)) {j : Nat}
    (hj : j < n.toNat) :
    CycleAt s n (c (33 + 2 * j)) (.playingNote, .strikes, 16, j + 1) ∧
      CycleAt s n (c (34 + 2 * j)) (.gap, .strikes, 16, j + 1) := by
  have hgap {j : Nat} (hj : j < n.toNat) (h : CycleAt s n (c (33 + 2 * j)) (.playingNote, .strikes, 16, j + 1)) :
      CycleAt s n (c (34 + 2 * j)) (.gap, .strikes, 16, j + 1) := by
    have hnext := h.poll hgaps hplay nofun (hpolls _ (by omega))
    rwa [show 33 + 2 * j + 1 = 34 + 2 * j by omega] at hnext
  induction j with
  | zero =>
    have hfirst := hpause.poll hgaps hplay nofun (hpolls 32 (by omega))
    exact ⟨hfirst, hgap hj hfirst⟩
  | succ j ih =>
    have hnext := (ih (by omega)).2.poll hgaps hplay nofun (hpolls _ (by omega))
    rw [nextPosition, if_pos hj, show 34 + 2 * j + 1 = 33 + 2 * (j + 1) by omega] at hnext
    exact ⟨hnext, hgap hj hnext⟩

/-- The last strike's gap ends the cycle. -/
theorem cycleAt_end {ki : Nat} (hpause : CycleAt s n (c 32) (.gap, .pauseBeforeStrikes, 16, ki)) (hn : 1 ≤ n.toNat) :
    CycleAt s n (c (33 + 2 * n.toNat)) (.idle, .none, 16, n.toNat) := by
  obtain ⟨j, hj⟩ := Nat.exists_eq_add_of_le' hn
  have hlast := (cycleAt_strikes hgaps hplay hpolls hpause (j := j) (by omega)).2.poll hgaps hplay nofun
    (hpolls _ (by omega))
  rwa [nextPosition, if_neg (by omega), show 34 + 2 * j + 1 = 33 + 2 * n.toNat by omega, ← hj] at hlast

/-- Melody note `j` has the duration of its ROM entry. -/
theorem melodyDuration_of_cycleAt {ki : Nat} (hstart : CycleAt s n (c 0) (.playingNote, .melody, 1, ki))
    (hfirst : (c 0).noteDurationMs.toNat = (entryDuration (s.melodyRom.get 0)).toNat) {j : Nat} (hj : j < 16) :
    (c (2 * j)).noteDurationMs.toNat = (entryDuration (s.melodyRom.get (Fin.ofNat 17 j))).toNat := by
  cases j with
  | zero => exact hfirst
  | succ j =>
    exact (cycleAt_melody hgaps hplay hpolls hstart (j := j) (by omega)).2.melodyDuration hgaps hplay hj
      (hpolls _ (by omega))

end Cycle

/-- Settles O32: each due poll leads to the next position, and the positions from melody note 0 on are counted. -/
theorem chimeCyclePlaysEveryNoteAndStrike : Obligations.ChimeCyclePlaysEveryNoteAndStrike := by
  intro s n c hrun hidle hactive hgaps hplay hmin hmax hchime hpolls
  obtain ⟨hstart, hfirst⟩ := cycleAt_startChime hrun hidle hactive hplay hmin hmax hchime
  have hpause := cycleAt_pause hgaps hplay hpolls hstart
  have hend := cycleAt_end hgaps hplay hpolls hpause hmin
  refine ⟨fun j hj => ?_, ⟨_, hpause.2⟩, fun j hj => ?_, hend.2, hend.1.running.1⟩
  · obtain ⟨hnote, hgap⟩ := cycleAt_melody hgaps hplay hpolls hstart hj
    exact ⟨_, hnote.2, hgap.2, melodyDuration_of_cycleAt hgaps hplay hpolls hstart hfirst hj⟩
  · obtain ⟨hnote, hgap⟩ := cycleAt_strikes hgaps hplay hpolls hpause hj
    exact ⟨hnote.2, hgap.2⟩

end Sys2Proof.Machine

/-! SUPPORT. Every cycle returns to rest in a fair run: what a turn of an agent does to a busy block, the time of a run,
and the moves of a run one after the other (42_sequencer.md R171, 70_reset_and_hazards.md R262). -/

namespace Sys2Proof.Machine

/-! ### A turn of an agent -/

/-- A turn keeps what a step keeps: the step is the turn the schedule asks for. -/
theorem healthy_agentTurn {a : Agent} {s t : State} (hs : healthy s) (h : agentTurn a s = .next t)
    (ht : t.faultCode = 0#8) : healthy t :=
  healthy_step (s := { s with schedule := a :: s.schedule }) hs ((step_scheduled rfl).trans h) ht

/-- Only CLOCK's turn takes time (60_exceptions.md R231). -/
theorem agentTurn_sameTime {a : Agent} {s t : State} (ha : a ≠ .clock) (h : agentTurn a s = .next t) :
    t.nowMs = s.nowMs ∧ t.runMs = s.runMs := by
  cases a with
  | tick =>
    obtain ⟨rfl, -, -⟩ | rfl := tickTurn_next_cases h
    · exact ⟨tick_nowMs s, tick_runMs s⟩
    · exact ⟨rfl, rfl⟩
  | host =>
    obtain rfl | ⟨_, _, _, -, -, -, hexec⟩ | ⟨_, _, _, -, -, -, rfl⟩ | ⟨_, _, _, _, -, rfl⟩ | ⟨_, _, -, rfl⟩ :=
      hostTurn_next_cases h
    · exact ⟨rfl, rfl⟩
    · obtain ⟨-, -, -, hnow, -, -, -, -, hms⟩ := exec_sameOutside hexec
      exact ⟨hnow, hms⟩
    · exact ⟨rfl, rfl⟩
    · rw [maybeChime_eq]; exact ⟨rfl, rfl⟩
    · rw [chimeIfIdle_eq]; exact ⟨rfl, rfl⟩
  | clock => exact absurd rfl ha

/-- The clock and the count of the run's milliseconds move together, by one at most. -/
theorem agentTurn_time {a : Agent} {s t : State} (h : agentTurn a s = .next t) :
    ∃ d, d ≤ 1 ∧ t.nowMs = s.nowMs + BitVec.ofNat 64 d ∧ t.runMs = s.runMs + d := by
  by_cases ha : a = .clock
  · subst ha
    obtain ⟨rfl, -⟩ := clockTurn_next_cases h
    exact ⟨1, le_rfl, rfl, rfl⟩
  · obtain ⟨hnow, hms⟩ := agentTurn_sameTime ha h
    exact ⟨0, Nat.zero_le 1, by simpa using hnow, hms⟩

/-- Of the commands a busy block takes without a fault, only UPDATE writes a sequencer field (R160). -/
theorem ruleOf_of_busy {i : Instr} {s t : State} (hs : healthy s) (hgaps : gapsInRange s.params)
    (hbusy : s.playbackState ≠ .idle) (h : ruleOf i s = .done t) : SameSequencer s t ∨ MovesOn s t := by
  have hend := ruleOf_ruleEnd i s
  rw [h] at hend
  cases i with
  | update =>
    obtain ⟨-, hmove⟩ | ⟨-, rfl⟩ :=
      updateRule_of_busy (gapSilent_of_healthy hs) (incomplete_of_healthy hs) hgaps hbusy h
    · exact .inr (hmove.movesOn hs)
    · exact .inl (.refl _)
  | startChime n =>
    cases hend with
    | busy => exact .inl (.refl _)
    | firstNote _ _ hidle => exact absurd hidle hbusy
  | _ => exact .inl (hend.sameSequencer nofun nofun)

/-- A turn of a busy block that ends without a fault leaves the sequencer waiting, or moves it on. -/
theorem agentTurn_of_busy {a : Agent} {s t : State} (hs : healthy s) (hgaps : gapsInRange s.params)
    (hbusy : s.playbackState ≠ .idle) (h : agentTurn a s = .next t) (ht : t.faultCode = 0#8) :
    SameSequencer s t ∨ (a = .host ∧ MovesOn s t) := by
  cases a with
  | tick =>
    obtain ⟨rfl, -, -⟩ | rfl := tickTurn_next_cases h
    · exact .inl (iterate_tick_same 1 s).1
    · exact .inl (.refl _)
  | host =>
    obtain rfl | ⟨_, queue, _, -, -, -, hexec⟩ | ⟨_, _, _, -, -, -, rfl⟩ | ⟨_, _, _, _, -, rfl⟩ | ⟨_, _, -, rfl⟩ :=
      hostTurn_next_cases h
    · exact .inl (.refl _)
    · exact (ruleOf_of_busy (s := { s with hostQueue := queue }) hs hgaps hbusy
        (exec_next_of_faultFree hexec ht)).imp_right fun hmove => ⟨rfl, hmove⟩
    · exact absurd ht (raiseFault_faulted _ _)
    · rw [maybeChime_eq]; exact .inl (.refl s)
    · rw [chimeIfIdle_eq]; exact .inl (.refl s)
  | clock =>
    obtain ⟨rfl, -⟩ := clockTurn_next_cases h
    exact .inl (.refl s)

/-- UPDATE, given when the move of a busy block is due, moves it on. -/
theorem hostTurn_of_updateDue {s t : State} {queue : List HostAction} (hrun : running s) (hs : healthy s)
    (hgaps : gapsInRange s.params) (hbusy : s.playbackState ≠ .idle) (hdue : updateDue s)
    (hqueue : s.hostQueue = .word (encode .update) :: queue) (h : hostTurn s = .next t) (ht : t.faultCode = 0#8) :
    MovesOn s t := by
  rw [hostTurn_command hqueue (encodedCommandDecodesToItself .update) (.inl hrun.1)] at h
  have hrule : updateRule { s with hostQueue := queue } = .done t := exec_next_of_faultFree h ht
  obtain ⟨-, hmove⟩ | ⟨hnot, -⟩ := updateRule_of_busy (s := { s with hostQueue := queue }) (gapSilent_of_healthy hs)
    (incomplete_of_healthy hs) hgaps hbusy hrule
  · exact (hmove.movesOn hs :)
  · exact absurd hdue hnot

theorem SameSequencer.trans {a b c : State} (h : SameSequencer a b) (g : SameSequencer b c) : SameSequencer a c := by
  obtain ⟨hstate, hphase, hseq, hstrike, hcount, hstamp, hduration⟩ := h
  obtain ⟨gstate, gphase, gseq, gstrike, gcount, gstamp, gduration⟩ := g
  exact ⟨gstate.trans hstate, gphase.trans hphase, gseq.trans hseq, gstrike.trans hstrike, gcount.trans hcount,
    gstamp.trans hstamp, gduration.trans hduration⟩

/-! ### A run without a fault -/

section Run

variable {state : Nat → State} {who : Nat → Agent} {queue : Nat → List HostAction}
  (hruns : IsRun state who queue)

include hruns

theorem run_params (m : Nat) : (state m).params = (state 0).params := by
  induction m with
  | zero => rfl
  | succ m ih =>
    obtain ⟨-, -, hparams⟩ := agentTurn_sameConfiguration (hruns m)
    exact hparams.trans ih

theorem run_turn_time (m : Nat) :
    ∃ d, d ≤ 1 ∧ (state (m + 1)).nowMs = (state m).nowMs + BitVec.ofNat 64 d ∧
      (state (m + 1)).runMs = (state m).runMs + d :=
  agentTurn_time (s := { state m with hostQueue := queue m }) (hruns m)

theorem run_turn_sameTime {m : Nat} (h : who m ≠ .clock) :
    (state (m + 1)).nowMs = (state m).nowMs ∧ (state (m + 1)).runMs = (state m).runMs :=
  agentTurn_sameTime (s := { state m with hostQueue := queue m }) h (hruns m)

/-- The clock of a run and the count of its milliseconds move on together. -/
theorem run_time {n m : Nat} (hm : n ≤ m) :
    ∃ d, (state m).nowMs = (state n).nowMs + BitVec.ofNat 64 d ∧ (state m).runMs = (state n).runMs + d := by
  induction m, hm using Nat.le_induction with
  | base => exact ⟨0, by simp, rfl⟩
  | succ m _ ih =>
    obtain ⟨d, hnow, hms⟩ := ih
    obtain ⟨e, -, hnow', hms'⟩ := run_turn_time hruns m
    refine ⟨d + e, ?_, ?_⟩
    · rw [hnow', hnow, BitVec.ofNat_add, BitVec.add_assoc]
    · rw [hms', hms, Nat.add_assoc]

theorem run_runMs_le {n m : Nat} (hm : n ≤ m) : (state n).runMs ≤ (state m).runMs := by
  obtain ⟨d, -, hms⟩ := run_time hruns hm
  exact hms ▸ Nat.le_add_right _ _

/-- A run that never shows the next millisecond stays at this one. -/
theorem run_runMs_eq {m k : Nat} (hk : m ≤ k) (hnever : ∀ j, m ≤ j → (state j).runMs ≠ (state m).runMs + 1) :
    (state k).runMs = (state m).runMs := by
  induction k, hk using Nat.le_induction with
  | base => rfl
  | succ k hk ih =>
    obtain ⟨d, hd, -, hms⟩ := run_turn_time hruns k
    have hnext := hnever (k + 1) (by omega)
    omega

/-- A fair run within its scope gets to the next millisecond (R262, S15). -/
theorem run_next_ms (hfair : FairRun state who queue) {m : Nat} (hm : (state m).runMs + 1 < 2 ^ 64) :
    ∃ k, m ≤ k ∧ (state k).runMs = (state m).runMs + 1 := by
  by_contra hnever
  have hstays {k : Nat} (hk : m ≤ k) : (state k).runMs = (state m).runMs :=
    run_runMs_eq hruns hk fun j hj h => hnever ⟨j, hj, h⟩
  obtain ⟨-, hclock, -⟩ := hfair
  obtain ⟨k, hk, hwho⟩ := hclock m fun k hk => (hstays hk).symm ▸ hm
  have hturn := hruns k
  rw [hwho] at hturn
  obtain ⟨hnext, -⟩ := clockTurn_next_cases hturn
  exact hnever ⟨k + 1, by omega, by rw [hnext, hstays hk]⟩

/-- So it reaches every time within its scope. -/
theorem run_reaches (hfair : FairRun state who queue) (n d : Nat) (hd : (state n).runMs + d < 2 ^ 64) :
    ∃ m, n ≤ m ∧ (state m).runMs = (state n).runMs + d := by
  induction d with
  | zero => exact ⟨n, le_rfl, rfl⟩
  | succ d ih =>
    obtain ⟨m, hm, hms⟩ := ih (by omega)
    obtain ⟨k, hk, hnext⟩ := run_next_ms hruns hfair (m := m) (by omega)
    exact ⟨k, hm.trans hk, by omega⟩

/-- While the sequencer waits, its note or gap lasts as long as the run goes on (42_sequencer.md R168). -/
theorem run_elapsed {n m : Nat} (hm : n ≤ m) (hstamp : elapsed (state n).nowMs (state n) ≤ (state n).runMs)
    (hsame : SameSequencer (state n) (state m)) (hscope : (state m).runMs < 2 ^ 64) :
    (state n).runMs + elapsed (state m).nowMs (state m) = elapsed (state n).nowMs (state n) + (state m).runMs := by
  obtain ⟨d, hnow, hms⟩ := run_time hruns hm
  rw [hsame.elapsed, hnow, elapsed_add (by omega)]
  omega

variable (hok : ∀ m, running (state m))

include hok

theorem run_healthy {n m : Nat} (hm : n ≤ m) (hs : healthy (state n)) : healthy (state m) := by
  induction m, hm using Nat.le_induction with
  | base => exact hs
  | succ m _ ih => exact healthy_agentTurn (s := { state m with hostQueue := queue m }) ih (hruns m) (hok (m + 1)).1

variable (hgaps : gapsInRange (state 0).params)

include hgaps

/-- From a busy state on, the sequencer waits until some turn moves it on. -/
theorem run_waits_or_moves {n m : Nat} (hm : n ≤ m) (hs : healthy (state n)) (hbusy : (state n).playbackState ≠ .idle) :
    SameSequencer (state n) (state m) ∨
    ∃ j, n ≤ j ∧ j < m ∧ who j = .host ∧ SameSequencer (state n) (state j) ∧ MovesOn (state j) (state (j + 1)) := by
  induction m, hm using Nat.le_induction with
  | base => exact .inl (.refl _)
  | succ m hm ih =>
    obtain hsame | ⟨j, hj, hlt, hmoved⟩ := ih
    · obtain hwaits | ⟨hhost, hmoves⟩ := agentTurn_of_busy (s := { state m with hostQueue := queue m })
        (run_healthy hruns hok hm hs) (run_params hruns m ▸ hgaps) (hsame.1 ▸ hbusy) (hruns m) (hok (m + 1)).1
      · exact .inl (hsame.trans hwaits)
      · exact .inr ⟨m, hm, Nat.lt_succ_self m, hhost, hsame, hmoves⟩
    · exact .inr ⟨j, hj, Nat.lt_succ_of_lt hlt, hmoved⟩

/-- A poll that comes once the note or gap has lasted its time moves the sequencer on, unless a turn before it has. -/
theorem run_polled {n p : Nat} (hp : n ≤ p) (hs : healthy (state n)) (hstamp : stampedInRun (state n))
    (hbusy : (state n).playbackState ≠ .idle) (hpoll : polls who queue p ∨ playing (state p) = false)
    (hdue : (state n).runMs + dueMs (state n) ≤ (state p).runMs) (hscope : (state p).runMs < 2 ^ 64) :
    ∃ j, n ≤ j ∧ j ≤ p ∧ who j = .host ∧ SameSequencer (state n) (state j) ∧ MovesOn (state j) (state (j + 1)) := by
  obtain hsame | ⟨j, hj, hlt, hmoved⟩ := run_waits_or_moves hruns hok hgaps hp hs hbusy
  · have hbusyp : (state p).playbackState ≠ .idle := hsame.1 ▸ hbusy
    obtain ⟨hhost, rest, hqueue⟩ := hpoll.resolve_right (by simp [playing, hbusyp])
    have helapsed := run_elapsed hruns hp (hstamp (by simp [playing, hbusy])) hsame hscope
    have hdueMs := hsame.dueMs ((run_params hruns p).trans (run_params hruns n).symm)
    have hupdate : updateDue (state p) := .inr (by omega)
    have hturn := hruns p
    rw [hhost] at hturn
    exact ⟨p, hp, le_rfl, hhost, hsame, hostTurn_of_updateDue (s := { state p with hostQueue := queue p }) (hok p)
      (run_healthy hruns hok hp hs) (run_params hruns p ▸ hgaps) hbusyp hupdate hqueue hturn (hok (p + 1)).1⟩
  · exact ⟨j, hj, hlt.le, hmoved⟩

/-- A block that is busy moves on within the length of its note or gap and the delay of the polls. -/
theorem run_moves_on (hfair : FairRun state who queue) {D : Nat} (hpolls : PollsWithin D state who queue) {n : Nat}
    (hs : healthy (state n)) (hstamp : stampedInRun (state n)) (hbusy : (state n).playbackState ≠ .idle)
    (htime : (state n).runMs + dueMs (state n) + D < 2 ^ 64) :
    ∃ j, n ≤ j ∧ SameSequencer (state n) (state j) ∧ MovesOn (state j) (state (j + 1)) ∧
      (state (j + 1)).nowMs = (state j).nowMs ∧
      (state (j + 1)).runMs ≤ (state n).runMs + dueMs (state n) + D := by
  obtain ⟨m, hm, hdue⟩ := run_reaches hruns hfair n (dueMs (state n)) (by omega)
  obtain ⟨p, hp, hdelay, hpoll⟩ := hpolls m
  have hreached := run_runMs_le hruns hp
  obtain ⟨j, hj, hjp, hhost, hsame, hmoves⟩ :=
    run_polled hruns hok hgaps (hm.trans hp) hs hstamp hbusy hpoll (by omega) (by omega)
  obtain ⟨hnow, hms⟩ := run_turn_sameTime hruns (m := j) (by simp [hhost])
  have hbefore := run_runMs_le hruns hjp
  exact ⟨j, hj, hsame, hmoves, hnow, hms.trans_le (by omega)⟩

/-- A block with at most `moves` moves left gets to rest, each move within the longest note or gap and the delay of its
poll. -/
theorem run_returns (hfair : FairRun state who queue) {G D : Nat} (hpolls : PollsWithin D state who queue)
    (hmost : gapsAtMost G (state 0).params) (moves n : Nat) (hleft : movesLeft (state n) ≤ moves)
    (hs : healthy (state n)) (hstamp : stampedInRun (state n))
    (htime : (state n).runMs + moves * (2 ^ 32 + G + D) < 2 ^ 64) :
    ∃ m, n ≤ m ∧ (state m).playbackState = .idle ∧ (state m).runMs ≤ (state n).runMs + moves * (2 ^ 32 + G + D) := by
  induction moves generalizing n with
  | zero => exact ⟨n, le_rfl, idle_of_movesLeft (Nat.le_zero.1 hleft), Nat.le_add_right _ _⟩
  | succ moves ih =>
    by_cases hidle : (state n).playbackState = .idle
    · exact ⟨n, le_rfl, hidle, Nat.le_add_right _ _⟩
    rw [Nat.succ_mul] at htime ⊢
    have hlength : dueMs (state n) ≤ 2 ^ 32 + G := (dueMs_le (run_params hruns n ▸ hmost)).trans (by omega)
    obtain ⟨j, hj, hsame, ⟨hfewer, hbegun⟩, hnow, hms⟩ :=
      run_moves_on hruns hok hgaps hfair hpolls hs hstamp hidle (by omega)
    have hnext : stampedInRun (state (j + 1)) := fun hplaying => by
      have hstamped := hbegun (by simpa [playing] using hplaying)
      rw [elapsed_of_stamp (hstamped.trans hnow.symm)]
      exact Nat.zero_le _
    obtain ⟨m, hm, hrest, hle⟩ := ih (j + 1) (by rw [hsame.movesLeft] at hfewer; omega)
      (run_healthy hruns hok (by omega) hs) hnext (by omega)
    exact ⟨m, by omega, hrest, by omega⟩

end Run

/-- Settles O59: a healthy block has at most 64 moves left, and at rest it is in no phase. -/
theorem everyCycleReturnsUnderFairness : Obligations.EveryCycleReturnsUnderFairness := by
  intro state who queue G D n hruns hfair hpolls hok hs hstamp hgaps hmost htime
  rw [run_params hruns n] at hgaps hmost
  obtain ⟨m, hm, hidle, hms⟩ :=
    run_returns hruns hok hgaps hfair hpolls hmost 64 n (movesLeft_le hs) hs hstamp htime
  exact ⟨m, hm, hidle, chimePhase_of_idle (run_healthy hruns hok hm hs) hidle, hms⟩

end Sys2Proof.Machine

/-! SUPPORT. BEGIN, and the answer of IS_PLAYING (44_control.md R190, R195). -/

namespace Sys2Proof.Machine

/-! ### BEGIN (R190) -/

theorem beginRule_of_notBegun {s : State} (h : s.begun = false) (pin : Byte) :
    beginRule pin s = .done (outWrite s.params.neutral { s with outputPin := pin, begun := true }) := by
  simp [beginRule, h]

theorem beginRule_of_begun {s : State} (h : s.begun = true) (pin : Byte) :
    beginRule pin s = .raised .alreadyBegun s := by rw [beginRule, if_pos h]

/-- Settles O34: BEGIN's rule reads `begun` alone, and its writes end with the one write to the sink. -/
theorem beginStartsTheBlockOnce : Obligations.BeginStartsTheBlockOnce := by
  refine ⟨fun _ => rfl, fun s pin hfault => ⟨fun hfirst => ?_, fun hsecond => ?_⟩⟩
  · rw [exec_of_free hfault rfl, ruleOf, beginRule_of_notBegun hfirst, finish_done]
    rfl
  · exact exec_of_raised (.begin pin) ⟨hfault, hsecond⟩ (beginRule_of_begun hsecond pin)

/-! ### IS_PLAYING (R195) -/

/-- IS_PLAYING runs its rule before BEGIN and in a faulted block too. -/
theorem exec_isPlaying (s : State) :
    exec .isPlaying s = .next { s with resp := if playing s then 1#32 else 0#32 } := by
  by_cases hfault : s.faultCode = 0#8
  · rw [exec_of_free hfault rfl, ruleOf, isPlayingRule, finish_done]
  · rw [exec_of_faulted hfault, if_pos ((legalWhenFaulted_iff _).2 (.inl rfl)), ruleOf, isPlayingRule, finish_done]

theorem playing_iff (s : State) : playing s = true ↔ s.playbackState ≠ .idle := by simp [playing]

/-- Settles O36: IS_PLAYING answers the flag PLAYING (R44), which says that `playbackState` is not Idle. -/
theorem isPlayingAnswersTheSequencer : Obligations.IsPlayingAnswersTheSequencer := by
  refine ⟨rfl, fun s => ⟨_, exec_isPlaying s, ?_⟩⟩
  simp only [playing_iff]
  by_cases hidle : s.playbackState = .idle
  · simp [hidle]
  · simp [hidle]

end Sys2Proof.Machine

/-! SUPPORT. The hourly trigger (48_host_trigger.md R200-R205): what each turn of a call does, what a step can do to the
trigger, and the order of the host's queue and of the fires. -/

namespace Sys2Proof.Machine

/-! ### The strikes of an hour and the quiet hours (R202, R204) -/

theorem strikesFor_le (h : Nat) : strikesFor h ≤ 12 := by
  unfold strikesFor
  split <;> omega

theorem strikesFor_pos (h : Nat) : 1 ≤ strikesFor h := by
  unfold strikesFor
  split <;> omega

theorem strikesFor_mod (h : Nat) : strikesFor h % 12 = h % 12 := by
  unfold strikesFor
  split <;> omega

/-- The strikes of an hour fit START_CHIME's operand. -/
@[simp] theorem toNat_strikesFor (h : Nat) : (BitVec.ofNat 8 (strikesFor h)).toNat = strikesFor h :=
  Nat.mod_eq_of_lt ((strikesFor_le h).trans_lt (by decide))

theorem setWidth_strikesFor (h : Nat) : (BitVec.ofNat 8 (strikesFor h)).setWidth 32 = BitVec.ofNat 32 (strikesFor h) := by
  refine BitVec.eq_of_toNat_eq ?_
  rw [BitVec.toNat_setWidth, toNat_strikesFor, BitVec.toNat_ofNat]

/-- Settles O50: the three facts of the strikes, with START_CHIME's range as the first two. -/
theorem strikesFollowTheTwelveHourClock : Obligations.StrikesFollowTheTwelveHourClock := fun h =>
  ⟨strikesFor_pos h, strikesFor_le h, strikesFor_mod h,
    (strikesInRange_iff _).2 (by rw [toNat_strikesFor]; exact ⟨strikesFor_pos h, strikesFor_le h⟩)⟩

/-- The hours from `quietStart` to before `quietEnd`, past midnight where the window wraps (R202). -/
theorem inQuiet_iff (P : Params) (h : Nat) :
    inQuiet P h = true ↔
      (P.quietStart ≤ h ∧ h < P.quietEnd) ∨ (P.quietEnd < P.quietStart ∧ (P.quietStart ≤ h ∨ h < P.quietEnd)) := by
  unfold inQuiet
  split_ifs <;> simp <;> omega

/-! ### The turns of a call (R200, R203) -/

theorem wallClockOk_iff (h m sec : Nat) : wallClockOk h m sec = true ↔ h ≤ 23 ∧ m ≤ 59 ∧ sec ≤ 59 := by
  simp [wallClockOk, and_assoc]

theorem chimeDue_iff (h m sec : Nat) (s : State) :
    chimeDue h m sec s = true ↔
      m = 0 ∧ sec < s.params.chimeWindowS ∧ s.lastChimedHour ≠ some h ∧ inQuiet s.params h = false := by
  simp [chimeDue, and_assoc]

section Turn

variable {s : State} {turns : List Agent} {queue : List HostAction} {h m sec : Nat}

theorem step_maybeChime_refused (hs : s.schedule = .host :: turns) (hq : s.hostQueue = .maybeChime h m sec :: queue)
    (hclock : ¬(h ≤ 23 ∧ m ≤ 59 ∧ sec ≤ 59)) : step s = .refused .wallClockOutOfRange := by
  rw [step_host hs, hostTurn]
  simp only [hq]
  rw [if_neg (mt (wallClockOk_iff h m sec).1 hclock)]

/-- A call with the wall clock in range takes its first turn. -/
theorem step_maybeChime (hs : s.schedule = .host :: turns) (hq : s.hostQueue = .maybeChime h m sec :: queue)
    (hclock : h ≤ 23 ∧ m ≤ 59 ∧ sec ≤ 59) :
    step s = .next (maybeChime h m sec { s with schedule := turns, hostQueue := queue }) := by
  rw [step_host hs, hostTurn]
  simp only [hq]
  rw [if_pos ((wallClockOk_iff h m sec).2 hclock)]

/-- A call that is due puts IS_PLAYING and its own second half before the queue. -/
theorem step_maybeChime_due (hs : s.schedule = .host :: turns) (hq : s.hostQueue = .maybeChime h m sec :: queue)
    (hclock : h ≤ 23 ∧ m ≤ 59 ∧ sec ≤ 59) (hdue : chimeDue h m sec s = true) :
    step s = .next { s with
      schedule := turns
      hostQueue := .word (encode .isPlaying) :: .chimeIfIdle h :: queue } :=
  (step_maybeChime hs hq hclock).trans (congrArg _ (if_pos hdue))

theorem step_maybeChime_notDue (hs : s.schedule = .host :: turns) (hq : s.hostQueue = .maybeChime h m sec :: queue)
    (hclock : h ≤ 23 ∧ m ≤ 59 ∧ sec ≤ 59) (hnot : ¬chimeDue h m sec s = true) :
    step s = .next { s with schedule := turns, hostQueue := queue } :=
  (step_maybeChime hs hq hclock).trans (congrArg _ (if_neg hnot))

theorem step_chimeIfIdle (hs : s.schedule = .host :: turns) (hq : s.hostQueue = .chimeIfIdle h :: queue) :
    step s = .next (chimeIfIdle h { s with schedule := turns, hostQueue := queue }) := by
  rw [step_host hs, hostTurn]
  simp only [hq]

/-- A call that IS_PLAYING answered 1 goes no further. -/
theorem step_chimeIfIdle_playing (hs : s.schedule = .host :: turns) (hq : s.hostQueue = .chimeIfIdle h :: queue)
    (hresp : s.resp = 1#32) : step s = .next { s with schedule := turns, hostQueue := queue } :=
  (step_chimeIfIdle hs hq).trans (congrArg _ (if_pos hresp))

/-- A call that IS_PLAYING answered otherwise fires. -/
theorem step_chimeIfIdle_fires (hs : s.schedule = .host :: turns) (hq : s.hostQueue = .chimeIfIdle h :: queue)
    (hresp : s.resp ≠ 1#32) :
    step s = .next { s with
      schedule := turns
      lastChimedHour := some h
      hostQueue := .word (encode (.startChime (BitVec.ofNat 8 (strikesFor h)))) :: queue } :=
  (step_chimeIfIdle hs hq).trans (congrArg _ (if_neg hresp))

/-- IS_PLAYING at rest answers 0 (44_control.md R195). -/
theorem step_isPlaying_idle (hs : s.schedule = .host :: turns) (hq : s.hostQueue = .word (encode .isPlaying) :: queue)
    (hidle : s.playbackState = .idle) :
    step s = .next { s with schedule := turns, hostQueue := queue, resp := 0#32 } := by
  rw [hostTurnRunsTheDecodedCommand s _ .isPlaying turns queue hs hq (encodedCommandDecodesToItself _) (.inr (.inl rfl)),
    exec_isPlaying]
  simp [playing, hidle]

/-- START_CHIME with an hour's strikes is in range, and from rest it starts melody note 0 (R204, 42_sequencer.md R158). -/
theorem step_startChime_strikesFor {inc tgt : Word} (hs : s.schedule = .host :: turns)
    (hq : s.hostQueue = .word (encode (.startChime (BitVec.ofNat 8 (strikesFor h)))) :: queue) (hrun : running s)
    (hidle : s.playbackState = .idle) (hactive : s.active = false) (hparams : entryParams s (s.melodyRom.get 0) inc tgt) :
    step s = .next (notePlaying s.nowMs (s.melodyRom.get 0) inc tgt { s with
      chimePhase := .melody
      sequenceIndex := 1#32
      strikeCount := BitVec.ofNat 32 (strikesFor h)
      hostQueue := queue
      schedule := turns }) := by
  rw [hostTurnRunsTheDecodedCommand s _ (.startChime _) turns queue hs hq (encodedCommandDecodesToItself _) (.inl hrun.1),
    startChimeStartsTheFirstNote { s with schedule := turns, hostQueue := queue } _ inc tgt hrun hidle hactive
      (by rw [toNat_strikesFor]; exact strikesFor_pos h) (by rw [toNat_strikesFor]; exact strikesFor_le h) hparams,
    setWidth_strikesFor]

end Turn

/-- Settles O54: HOST's turn checks the wall clock before anything else. -/
theorem wallClockOutOfRangeIsRefused : Obligations.WallClockOutOfRangeIsRefused :=
  fun _ _ _ _ _ _ hs hq hclock => step_maybeChime_refused hs hq hclock

/-- Settles O52: each of the four conditions denies one that a due call meets. -/
theorem aCallThatIsNotDueDoesNothing : Obligations.ACallThatIsNotDueDoesNothing := by
  intro s h m sec turns queue hs hq hh hm hsec hnot
  refine step_maybeChime_notDue hs hq ⟨hh, hm, hsec⟩ fun hdue => ?_
  obtain ⟨hminute, hwindow, hhour, hquiet⟩ := (chimeDue_iff _ _ _ _).1 hdue
  obtain hlate | hlate | hchimed | hin := hnot
  · exact hlate hminute
  · exact hlate.not_gt hwindow
  · exact hhour hchimed
  · exact Bool.eq_false_iff.1 hquiet ((inQuiet_iff s.params h).2 hin)

/-- Settles O51: the call asks, IS_PLAYING answers 0, the fire records the hour, and START_CHIME starts the note. -/
theorem aDueChimeReachesStartChime : Obligations.ADueChimeReachesStartChime := by
  intro s h sec inc tgt turns queue hrun hidle hactive hh hsec hwindow hhour hquiet hparams hq hs
  have hdue : chimeDue h 0 sec s = true := (chimeDue_iff h 0 sec s).2 ⟨rfl, hwindow, hhour, hquiet⟩
  refine (run_next (step_maybeChime_due hs hq ⟨hh, Nat.zero_le _, hsec⟩ hdue)).trans ?_
  refine Eq.trans (run_next (step_isPlaying_idle rfl rfl hidle)) ?_
  refine Eq.trans (run_next (step_chimeIfIdle_fires rfl rfl (by simp))) ?_
  refine Eq.trans (run_next (step_startChime_strikesFor rfl rfl hrun hidle hactive hparams)) ?_
  rfl

/-! ### What a step can do to the trigger (R201, R203) -/

/-- What a step does to the recorded hour and to the host's queue. -/
inductive TriggerStep (s t : State) : Prop
  /-- No turn of HOST, or one without a step. -/
  | kept (hhour : t.lastChimedHour = s.lastChimedHour) (hqueue : t.hostQueue = s.hostQueue)
  /-- HOST's next action is used up: a word, or half of a call that goes no further. -/
  | dropped (a : HostAction) (hhour : t.lastChimedHour = s.lastChimedHour) (hqueue : s.hostQueue = a :: t.hostQueue)
  /-- A call that is due asks the block. -/
  | asks (h m sec : Nat) (queue : List HostAction) (hcall : s.hostQueue = .maybeChime h m sec :: queue)
      (hnew : s.lastChimedHour ≠ some h) (hhour : t.lastChimedHour = s.lastChimedHour)
      (hqueue : t.hostQueue = .word (encode .isPlaying) :: .chimeIfIdle h :: queue)
  | fire (h : Nat) (queue : List HostAction) (hfires : fires h s) (hcall : s.hostQueue = .chimeIfIdle h :: queue)
      (hhour : t.lastChimedHour = some h)
      (hqueue : t.hostQueue = .word (encode (.startChime (BitVec.ofNat 8 (strikesFor h)))) :: queue)

/-- The first half of a call is used up, or it asks; `u` is `s` with the choice of the turn made. -/
theorem triggerStep_maybeChime {s u : State} {h m sec : Nat} {queue : List HostAction}
    (hu : u.lastChimedHour = s.lastChimedHour) (hcall : s.hostQueue = .maybeChime h m sec :: queue) :
    TriggerStep s (maybeChime h m sec { u with hostQueue := queue }) := by
  by_cases hdue : chimeDue h m sec { u with hostQueue := queue } = true
  · obtain ⟨-, -, hnew, -⟩ := (chimeDue_iff _ _ _ _).1 hdue
    rw [maybeChime, if_pos hdue]
    exact .asks h m sec queue hcall (hu ▸ hnew) hu rfl
  · rw [maybeChime, if_neg hdue]
    exact .dropped _ hu hcall

theorem step_triggerStep {s t : State} (h : step s = .next t) : TriggerStep s t := by
  have hstep := h
  have hhour := nextTurn_lastChimedHour s
  rw [step] at h
  cases hturn : (nextTurn s).1 with rw [hturn] at h
  | tick =>
    obtain ⟨rfl, -, -⟩ | rfl := tickTurn_next_cases h
    · exact .kept (by simp) (by simp)
    · exact .kept hhour (nextTurn_hostQueue s)
  | clock =>
    obtain ⟨rfl, -⟩ := clockTurn_next_cases h
    exact .kept hhour (nextTurn_hostQueue s)
  | host =>
    have hcases := hostTurn_next_cases h
    rw [nextTurn_hostQueue] at hcases
    obtain rfl | ⟨w, _, _, hq, -, -, hexec⟩ | ⟨w, _, _, hq, -, -, rfl⟩ | ⟨_, _, _, _, hq, rfl⟩ | ⟨hour, _, hq, rfl⟩ :=
      hcases
    · exact .kept hhour (nextTurn_hostQueue s)
    · obtain ⟨-, -, -, -, hsame, hqueue, -⟩ := exec_sameOutside hexec
      exact .dropped (.word w) (hsame.trans hhour) (hq.trans (congrArg _ hqueue.symm))
    · exact .dropped (.word w) hhour hq
    · exact triggerStep_maybeChime hhour hq
    · by_cases hresp : s.resp = 1#32
      · rw [chimeIfIdle, if_pos ((nextTurn_resp s).trans hresp)]
        exact .dropped (.chimeIfIdle hour) hhour hq
      · have hfires : fires hour s := ⟨hturn, ⟨_, hq⟩, hresp⟩
        obtain ⟨hrecorded, queue, hcall, hqueue⟩ := step_of_fires hfires hstep
        exact .fire hour queue hfires hcall hrecorded hqueue

/-- A step keeps the recorded hour, or is a fire, which records its own. -/
theorem lastChimedHour_kept_or_fires {s t : State} (h : step s = .next t) :
    t.lastChimedHour = s.lastChimedHour ∨ ∃ hour, fires hour s ∧ t.lastChimedHour = some hour := by
  cases step_triggerStep h with
  | kept hhour => exact .inl hhour
  | dropped _ hhour => exact .inl hhour
  | asks _ _ _ _ _ _ hhour => exact .inl hhour
  | fire hour _ hfires _ hhour => exact .inr ⟨hour, hfires, hhour⟩

/-- Settles O53: a step that changes the hour is a fire, and a call answered 1 is used up. -/
theorem onlyAFireRecordsItsHour : Obligations.OnlyAFireRecordsItsHour := by
  refine ⟨fun s t h hchanged => ?_, fun _ _ _ _ hs hq hresp => step_chimeIfIdle_playing hs hq hresp⟩
  obtain ⟨hour, hfires, hhour⟩ := (lastChimedHour_kept_or_fires h).resolve_left hchanged
  obtain ⟨-, queue, hcall, hqueue⟩ := step_of_fires hfires h
  obtain ⟨-, -, hresp⟩ := hfires
  exact ⟨hour, queue, hcall, hresp, hhour, hqueue⟩

/-! ### The order of the queue (R203) -/

theorem triggerOrderly_congr {s t : State} (hhour : t.lastChimedHour = s.lastChimedHour)
    (hqueue : t.hostQueue = s.hostQueue) : triggerOrderly t ↔ triggerOrderly s := by
  unfold triggerOrderly
  rw [hhour, hqueue]

theorem triggerOrderly_maybeChime {s : State} {h m sec : Nat} {queue : List HostAction}
    (hq : s.hostQueue = .maybeChime h m sec :: queue) : triggerOrderly s ↔ noHalfCall queue := by
  simp [triggerOrderly, hq, noHalfCall]

theorem triggerOrderly_chimeIfIdle {s : State} {h : Nat} {queue : List HostAction}
    (hq : s.hostQueue = .chimeIfIdle h :: queue) : triggerOrderly s ↔ s.lastChimedHour ≠ some h ∧ noHalfCall queue := by
  simp [triggerOrderly, hq]

theorem triggerOrderly_asked {s : State} {w : CommandWord} {h : Nat} {queue : List HostAction}
    (hq : s.hostQueue = .word w :: .chimeIfIdle h :: queue) :
    triggerOrderly s ↔ w = encode .isPlaying ∧ s.lastChimedHour ≠ some h ∧ noHalfCall queue := by
  simp [triggerOrderly, hq]

/-- Using up the head of an orderly queue brings a second half to the head at most. -/
theorem triggerOrderly_of_dropped {s t : State} {a : HostAction} (hs : triggerOrderly s)
    (hhour : t.lastChimedHour = s.lastChimedHour) (hqueue : s.hostQueue = a :: t.hostQueue) : triggerOrderly t := by
  unfold triggerOrderly at hs
  rw [hqueue] at hs
  split at hs
  next heq =>
    obtain ⟨-, rfl⟩ := List.cons.inj heq
    exact triggerOrderly_of_noHalfCall hs.2
  next heq =>
    obtain ⟨-, hrest⟩ := List.cons.inj heq
    rw [triggerOrderly_chimeIfIdle hrest, hhour]
    exact hs.2
  next => exact triggerOrderly_of_noHalfCall fun h hmem => hs h (List.mem_cons_of_mem _ hmem)

theorem TriggerStep.orderly {s t : State} (h : TriggerStep s t) (hs : triggerOrderly s) : triggerOrderly t := by
  cases h with
  | kept hhour hqueue => exact (triggerOrderly_congr hhour hqueue).2 hs
  | dropped _ hhour hqueue => exact triggerOrderly_of_dropped hs hhour hqueue
  | asks _ _ _ _ hcall hnew hhour hqueue =>
    rw [triggerOrderly_asked hqueue, hhour]
    exact ⟨rfl, hnew, (triggerOrderly_maybeChime hcall).1 hs⟩
  | fire _ _ _ hcall _ hqueue =>
    obtain ⟨-, hqueued⟩ := (triggerOrderly_chimeIfIdle hcall).1 hs
    exact triggerOrderly_of_noHalfCall (by simpa [noHalfCall, hqueue] using hqueued)

/-- Settles O55: at power-on nothing is queued, and a call queues its second half only when it asks. -/
theorem triggerQueueStaysOrderly : Obligations.TriggerQueueStaysOrderly :=
  ⟨triggerOrderly_of_noHalfCall (fun _ => List.not_mem_nil), fun _ _ hs h => (step_triggerStep h).orderly hs⟩

/-- Every state of a run from an orderly one is orderly. -/
theorem triggerOrderly_run {run : Nat → State} {j n : Nat} (hstart : triggerOrderly (run 0))
    (hruns : ∀ n, n < j → step (run n) = .next (run (n + 1))) (hn : n ≤ j) : triggerOrderly (run n) := by
  induction n with
  | zero => exact hstart
  | succ n ih => exact (step_triggerStep (hruns n hn)).orderly (ih (by omega))

/-! ### Two fires of one hour (R205) -/

/-- In an orderly state no fire is for the recorded hour. -/
theorem lastChimedHour_ne_of_fires {s : State} {h : Nat} (hs : triggerOrderly s) (hf : fires h s) :
    s.lastChimedHour ≠ some h := by
  obtain ⟨-, ⟨_, hq⟩, -⟩ := hf
  exact ((triggerOrderly_chimeIfIdle hq).1 hs).1

/-- Settles O56: without another hour's fire in between, the hour of the first fire stays recorded, and then the second
cannot be for that hour. -/
theorem twoFiresOfAnHourHaveAnotherBetween : Obligations.TwoFiresOfAnHourHaveAnotherBetween := by
  intro run h i j horderly hruns hij hi hj
  by_contra hnone
  have hrecorded : ∀ n, i + 1 ≤ n → n ≤ j → (run n).lastChimedHour = some h := by
    intro n hn
    induction n, hn using Nat.le_induction with
    | base => exact fun _ => (step_of_fires hi (hruns i hij)).1
    | succ n hn ih =>
      intro hnj
      obtain hkept | ⟨other, hfires, hhour⟩ := lastChimedHour_kept_or_fires (hruns n hnj)
      · exact hkept.trans (ih (by omega))
      · have hsame : other = h := by
          by_contra hother
          exact hnone ⟨n, other, hn, hnj, hother, hfires⟩
        exact hsame ▸ hhour
  exact lastChimedHour_ne_of_fires (triggerOrderly_run horderly hruns le_rfl) hj (hrecorded j hij le_rfl)

end Sys2Proof.Machine

/-! SUPPORT. The clock (60_exceptions.md R231): CLOCK's turn within the run's scope (S15), and the frame of the commands. -/

namespace Sys2Proof.Machine

/-- Before the run has lasted 2^64 ms, CLOCK's turn counts one millisecond, in the clock and in the run's counter. -/
theorem clockTurn_of_runMs_lt {s : State} (h : s.runMs + 1 < Config.runLimitMs) :
    clockTurn s = .next { s with nowMs := s.nowMs + 1#64, runMs := s.runMs + 1 } := by
  rw [clockTurn, if_pos h]

/-- No command writes the clock. -/
theorem exec_nowMs {i : Instr} {s t : State} (h : exec i s = .next t) : t.nowMs = s.nowMs := by
  obtain ⟨-, -, -, hnow, -⟩ := exec_sameOutside h
  exact hnow

/-- Settles O9: the scheduled turn is CLOCK's, and the clock is outside what a command or a tick writes. -/
theorem onlyTheClockMovesTheTime : Obligations.OnlyTheClockMovesTheTime := by
  refine ⟨fun s turns hschedule hrun => ?_, fun _ _ _ => exec_nowMs, tick_nowMs⟩
  rw [step_scheduled hschedule, agentTurn_clock]
  exact clockTurn_of_runMs_lt (s := { s with schedule := turns }) hrun

end Sys2Proof.Machine

/-! SUPPORT. The observation of a run (70_reset_and_hazards.md R263): what the first steps of a run show, one step after the
other, and the number of steps after which a run ends. -/

namespace Sys2Proof.Machine

/-- Observing one step more is a step, then the observation of the rest with the step's own responses before it. -/
theorem observe_succ_eq_some {k : Nat} {s t : State} {responses : List Word} :
    observe (k + 1) s = some (t, responses) ↔
      ∃ u later, step s = .next u ∧ observe k u = some (t, later) ∧ responseOf s u ++ later = responses := by
  cases h : step s with
  | next u => simp [observe_next h]
  | fault _ => simp [observe, h]
  | refused _ => simp [observe, h]

/-- A run that has not ended is observed as its next step, then the observation of the rest. -/
theorem observeRun_succ_eq_some {fuel : Nat} {s t : State} {responses : List Word} (he : ¬ended s) :
    observeRun (fuel + 1) s = some (t, responses) ↔
      ∃ u later, step s = .next u ∧ observeRun fuel u = some (t, later) ∧ responseOf s u ++ later = responses := by
  cases h : step s with
  | next u => simp [observeRun_next he h]
  | fault _ => simp [observeRun, he, h]
  | refused _ => simp [observeRun, he, h]

/-- The run from `s` ends after exactly `k` steps, in `t`, with these responses: `t` is ended and no state before it is. -/
def EndsAfter (k : Nat) (s t : State) (responses : List Word) : Prop :=
  observe k s = some (t, responses) ∧ ended t ∧
    ∀ j, j < k → ∀ u earlier, observe j s = some (u, earlier) → ¬ended u

/-- A run ends after no step if its state is ended. -/
theorem endsAfter_zero {s t : State} {responses : List Word} :
    EndsAfter 0 s t responses ↔ ended s ∧ s = t ∧ responses = [] := by
  constructor
  · rintro ⟨hobs, hended, -⟩
    cases hobs
    exact ⟨hended, rfl, rfl⟩
  · rintro ⟨hended, rfl, rfl⟩
    exact ⟨rfl, hended, fun _ hj => absurd hj (Nat.not_lt_zero _)⟩

/-- A run ends after one step more than `k` if its state is not ended and the run from the next state ends after `k`. -/
theorem endsAfter_succ {k : Nat} {s t : State} {responses : List Word} :
    EndsAfter (k + 1) s t responses ↔
      ¬ended s ∧ ∃ u later, step s = .next u ∧ EndsAfter k u t later ∧ responseOf s u ++ later = responses := by
  constructor
  · rintro ⟨hobs, hended, hfirst⟩
    obtain ⟨u, later, hstep, hrest, happend⟩ := observe_succ_eq_some.1 hobs
    refine ⟨hfirst 0 k.succ_pos s [] rfl, u, later, hstep, ⟨hrest, hended, fun j hj v earlier hv => ?_⟩, happend⟩
    exact hfirst (j + 1) (Nat.succ_lt_succ hj) v _ (observe_succ_eq_some.2 ⟨u, earlier, hstep, hv, rfl⟩)
  · rintro ⟨hnot, u, later, hstep, ⟨hrest, hended, hfirst⟩, happend⟩
    refine ⟨observe_succ_eq_some.2 ⟨u, later, hstep, hrest, happend⟩, hended, fun j hj v earlier hv => ?_⟩
    cases j with
    | zero => cases hv; exact hnot
    | succ j =>
      obtain ⟨u', earlier', hstep', hv', -⟩ := observe_succ_eq_some.1 hv
      obtain rfl : u = u' := by simpa [hstep] using hstep'
      exact hfirst j (Nat.lt_of_succ_lt_succ hj) v earlier' hv'

/-- From an ended state a run ends after no step. -/
theorem endsAfter_of_ended {k : Nat} {s t : State} {responses : List Word} (hs : ended s) :
    EndsAfter k s t responses ↔ k = 0 ∧ s = t ∧ responses = [] := by
  cases k with
  | zero => simpa using endsAfter_zero.trans (and_iff_right hs)
  | succ k => simp [endsAfter_succ, hs]

/-- `observeRun` finds the end of a run that ends within its fuel. -/
theorem observeRun_eq_some_iff_endsAfter {fuel : Nat} {s t : State} {responses : List Word} :
    observeRun fuel s = some (t, responses) ↔ ∃ k, k ≤ fuel ∧ EndsAfter k s t responses := by
  induction fuel generalizing s responses with
  | zero =>
    by_cases hs : ended s
    · simp [observeRun_of_ended hs, endsAfter_of_ended hs, eq_comm]
    · simp [observeRun, endsAfter_zero, hs]
  | succ fuel ih =>
    by_cases hs : ended s
    · simp [observeRun_of_ended hs, endsAfter_of_ended hs, eq_comm]
    · rw [observeRun_succ_eq_some hs]
      constructor
      · rintro ⟨u, later, hstep, hrest, happend⟩
        obtain ⟨k, hk, hends⟩ := ih.1 hrest
        exact ⟨k + 1, Nat.succ_le_succ hk, endsAfter_succ.2 ⟨hs, u, later, hstep, hends, happend⟩⟩
      · rintro ⟨k, hk, hends⟩
        cases k with
        | zero => exact absurd (endsAfter_zero.1 hends).1 hs
        | succ k =>
          obtain ⟨-, u, later, hstep, hends', happend⟩ := endsAfter_succ.1 hends
          exact ⟨u, later, hstep, ih.2 ⟨k, Nat.le_of_succ_le_succ hk, hends'⟩, happend⟩

/-- No end of a run comes after another: the states before an end are not ended. -/
theorem EndsAfter.le {k l : Nat} {s t u : State} {responses later : List Word} (hk : EndsAfter k s t responses)
    (hl : EndsAfter l s u later) : l ≤ k := by
  obtain ⟨hobs, hended, -⟩ := hk
  obtain ⟨-, -, hfirst⟩ := hl
  by_contra hlt
  exact hfirst k (Nat.lt_of_not_le hlt) t responses hobs hended

/-- A run has one end, with one list of responses. -/
theorem EndsAfter.unique {k l : Nat} {s t u : State} {responses later : List Word} (hk : EndsAfter k s t responses)
    (hl : EndsAfter l s u later) : u = t ∧ later = responses := by
  obtain rfl : k = l := Nat.le_antisymm (hl.le hk) (hk.le hl)
  obtain ⟨hobs, -, -⟩ := hk
  obtain ⟨hlater, -, -⟩ := hl
  exact Prod.mk.inj (Option.some.inj (hlater.symm.trans hobs))

/-- Settles O58: `observeRun` finds the one end of the run, whatever fuel reaches it. -/
theorem aRunEndsAtItsFirstEndedState : Obligations.ARunEndsAtItsFirstEndedState := by
  intro s t responses fuel
  refine ⟨observeRun_eq_some_iff_endsAfter, fun hrun more u later hmore => ?_⟩
  obtain ⟨_, -, hends⟩ := observeRun_eq_some_iff_endsAfter.1 hrun
  obtain ⟨_, -, hends'⟩ := observeRun_eq_some_iff_endsAfter.1 hmore
  exact hends.unique hends'

end Sys2Proof.Machine
